-- ==== Sys2Proof/Word.lean ====
section
/-! DEFINITION. The plain word types of the NB4160: a byte, a 16-bit lane and a 32-bit word or address. -/

namespace Sys2Proof

/-- Eight bits: a link byte. -/
abbrev Byte := BitVec 8

/-- Sixteen bits: a lane's raw value, or a 16-bit field (R22). -/
abbrev Half := BitVec 16

/-- Thirty-two bits: a word of either port, an address, a stamp. The byte at address + k is bits
8k+7..8k (R22; DEDUCED, log 15). -/
abbrev Word := BitVec 32

end Sys2Proof
end

