-- ==== Sys2Proof/Config.lean ====
section
/-! DEFINITION. What the NB4160 fixes for every part, and the model's one free value. -/

namespace Sys2Proof

/-- Part code reported on the link (R174). -/
def Config.partCode : Half := 0x4160

/-- Revision reported on the link (R174). -/
def Config.revision : Byte := 0x02

/-- The value of a 4-byte cursor field when the sweep cursor stands at 2^32: the spec gives the
field four bytes and states no value for it (DESIGN CHOICE, log 13). A free value: nothing is
known of it. The argument is the model's counter `freeCount`. -/
opaque Config.cursorPastTop : Nat → Word

end Sys2Proof
end

