-- ==== Sys2Proof/Syntax.lean ====
section
/-! DEFINITION. The commands of the block: one constructor of `Instr` for each row of
spec/opcode_table.json, with the operands its rule gives it. -/

namespace Sys2Proof

/-- A word of write data with its four byte enables; bit k of `enables` is the byte at address + k
(section 3.1, R22, R23). -/
structure WriteWord where
  data : Word
  enables : BitVec 4
  deriving DecidableEq, Repr

/-- What a host request asks for: a read of `len` words, or a write of the given words. The length
of a write is the number of its words (section 3.1; log 17). -/
inductive HostOp where
  | read (len : Nat)
  | write (words : List WriteWord)
  deriving DecidableEq, Repr

/-- A request on the U port, whole (section 3.1). -/
structure HostRequest where
  tag : Fin 16
  addr : Word
  op : HostOp
  deriving DecidableEq, Repr

/-- Status of a memory response (R43). -/
inductive MemStatus where
  | okay
  | error
  deriving DecidableEq, Repr

/-- A direction of a STROBE transition, and the timebase's edge field (R144). -/
inductive Edge where
  | rising
  | falling
  deriving DecidableEq, Repr

/-- The bit rate that LRATE selects (R157). -/
inductive LinkRate where
  | baud115200
  | baud1000000
  deriving DecidableEq, Repr

/-- What the target reads back at the end of a commit, which decides between R184's three ends (DESIGN
CHOICE, log 11). -/
inductive CommitOutcome where
  /-- Step 2 ends the commit: the 892 bytes from the generation to the CRC-32 read back as these, which
  differ from what was to be written. -/
  | bodyMismatch (readBack : List Byte)
  /-- Step 2 found a match, and step 3's marker reads back as this word, exact or wrong. -/
  | markerReadBack (marker : Word)
  deriving DecidableEq, Repr

/-- An event that a step of the microsecond base brings (R143): a deadline that it reaches (R53, R138,
R159), or the end of 1 ms of low line (R171). -/
inductive StepEvent where
  | expiry (tag : Fin 64)
  | captureDeadline (window : Fin 16)
  | interByteGap
  | lineBreak
  deriving DecidableEq, Repr

/-- The commands: the rows of spec/opcode_table.json, in its order. A row that is a link command
stands for a good packet of that command handed to the dispatcher (R160, R162); its operands are
the TRN, the window of its unit where it has one, and the payload fields of R193, each at its full
width so that a value out of range can be sent (DESIGN CHOICE, log 3). -/
inductive Instr where
  /-- Power-on or RESET_N asserted (R180). `markerWritten`: a commit was pending and its marker had
  already been written when the reset came (R185; log 10). -/
  | hardwareReset (markerWritten : Bool)
  /-- The hardware reset ends and LRATE is sampled (R180). -/
  | resetEnd (rate : LinkRate)
  /-- Both boot copies have been read (R181). `lostA`, `lostB`: the copy has become invalid since it
  was last written (R186; log 10). -/
  | load (lostA lostB : Bool)
  | opening
  | acceptance (req : HostRequest)
  | responseTaken
  | hostTurn
  | sweepReadTurn
  | sweepWriteTurn
  | subRequestIssue
  | memoryResponse (tag : Fin 64) (status : MemStatus) (words : List Word)
  | expiry (tag : Fin 64)
  | captureDeadline (w : Fin 16)
  | strobeEdge (edge : Edge)
  /-- The microsecond base steps (R143, R144). `early`, `late`: events of this step that are taken in this
  order, before the count of source INTERNAL and after it (DESIGN CHOICE, log 5); none by default. -/
  | timebaseIncrement (early : List StepEvent := []) (late : List StepEvent := [])
  | linkByteReceived (b : Byte)
  | interByteGap
  | linkBreak
  | breakEnd
  | transmitterChoice
  | transmissionEnd
  /-- A packet whose unit, code or payload length no command defines (R163). -/
  | undefinedCommand (unit code trn : Byte) (payload : List Byte)
  | getIdentity (trn : Byte)
  | getStatus (trn : Byte)
  | setLimits (trn : Byte) (limit : Half)
  | getLinkCounters (trn flags : Byte)
  | define (w : Fin 16) (trn : Byte) (base : Word) (pages : Half)
      (mode format count flags : Byte) (shadow : Word)
  | setChannel (w : Fin 16) (trn channel : Byte) (gain offset clampLow clampHigh : Half)
  | enable (w : Fin 16) (trn : Byte)
  | disable (w : Fin 16) (trn : Byte)
  | query (w : Fin 16) (trn channel : Byte)
  | sweep (w : Fin 16) (trn : Byte) (startPage pageCount : Half)
  | zeroCapture (w : Fin 16) (trn channel n : Byte) (limit : Half)
  | abort (w : Fin 16) (trn : Byte)
  | readStats (w : Fin 16) (trn slot flags : Byte)
  | monSet (trn monitor window channel : Byte) (level hysteresis : Half) (direction mode : Byte)
  | monArm (trn monitor : Byte)
  | monRelease (trn monitor : Byte)
  | monQuery (trn monitor : Byte)
  | tbSet (trn source edge : Byte) (preset : Word)
  | tbRead (trn : Byte)
  | faultPeek (trn : Byte)
  | faultPop (trn : Byte)
  | faultClear (trn : Byte)
  | bootCommit (trn : Byte)
  | commitEnd (outcome : CommitOutcome)
  /-- `lostA`, `lostB` as for `load` (R186). -/
  | bootReload (trn : Byte) (lostA lostB : Bool)
  | bootQuery (trn : Byte)
  deriving DecidableEq, Repr

end Sys2Proof
end

