-- ==== Sys2Proof/Decode.lean ====
section
/-! DEFINITION. The command that a word spells by the table's bits. -/

namespace Sys2Proof

/-- spec/opcode_table.json gives no row bits (its rows' "fields" are empty), so no word spells a
command. The packets of the link are read in Machine/Packets.lean. -/
def decodeTableWord (_nbits _w : Nat) : Option Instr := none

end Sys2Proof
end

