-- ==== Sys2Proof/Machine/Types.lean ====
section
/-! DEFINITION. The data the block's state is made of: one type for each table, record and
enumeration that the spec's chapters name. -/

namespace Sys2Proof.Machine

/-! ### Windows and profiles (chapter 1) -/

/-- Treatment of a window's traffic (R5). -/
inductive Mode where
  | present
  | store
  | storeBoth
  deriving DecidableEq, Repr

/-- Encoding of raw lanes (R26). -/
inductive RawFormat where
  | s16
  | u16
  | s12r
  | u12r
  | u12l
  deriving DecidableEq, Repr

/-- Gain, offset and clamp of one channel (section 1.1). The gain is unsigned; offset and clamp are
signed. -/
structure ChanRec where
  gain : Half
  offset : Half
  low : Half
  high : Half
  deriving DecidableEq, Repr

/-- The default channel record (section 1.1, R14). -/
def ChanRec.default : ChanRec := ⟨16384, 0, 0x8000, 0x7FFF⟩

/-- The definition of a window: the fields base through channel count (section 1.1). -/
structure WindowDef where
  base : Word
  pages : Nat
  mode : Mode
  shadow : Option Word
  format : RawFormat
  count : Nat
  deriving DecidableEq, Repr

/-- The default definition (section 1.1). -/
def WindowDef.default : WindowDef := ⟨0, 1, .store, none, .s16, 1⟩

inductive WinState where
  | disabled
  | enabled
  | draining
  deriving DecidableEq, Repr

inductive Activity where
  | idle
  | sweeping
  | zeroing
  deriving DecidableEq, Repr

/-- Kind of a window's deferred command (R11). -/
inductive DeferredKind where
  | disable
  | sweep
  | zero
  deriving DecidableEq, Repr

/-- A window's deferred command (R11). -/
structure WinDeferred where
  trn : Byte
  kind : DeferredKind
  deriving DecidableEq, Repr

/-- One entry of the window table (section 1.1). -/
structure Window where
  defn : WindowDef
  chans : List ChanRec
  state : WinState
  activity : Activity
  stale : Bool
  inflight : Nat
  deferred : Option WinDeferred
  deriving DecidableEq, Repr

/-- The entry of section 1.1's default column. -/
def Window.default : Window :=
  ⟨.default, [.default], .disabled, .idle, false, 0, none⟩

/-! ### Statistics, monitors and zero capture (chapters 6 and 8) -/

/-- A statistics record (section 6.5). -/
structure Stats where
  samples : Nat
  clipped : Nat
  min : Option Int
  max : Option Int
  deriving DecidableEq, Repr

/-- The empty record (section 6.5). -/
def Stats.empty : Stats := ⟨0, 0, none, none⟩

inductive MonState where
  | unbound
  | armed
  | tripped
  deriving DecidableEq, Repr

/-- Which crossings a monitor watches (R98). -/
inductive Direction where
  | rising
  | falling
  | both
  deriving DecidableEq, Repr

inductive MonMode where
  | continuous
  | oneShot
  deriving DecidableEq, Repr

/-- A monitor's binding and parameters (section 6.1). -/
structure MonBind where
  window : Fin 16
  channel : Nat
  level : Half
  hysteresis : Nat
  direction : Direction
  mode : MonMode
  deriving DecidableEq, Repr

inductive Side where
  | unknown
  | above
  | below
  deriving DecidableEq, Repr

/-- A crossing record; its direction is rising or falling (section 6.1). -/
structure Crossing where
  direction : Edge
  value : Int
  addr : Word
  stamp : Word
  deriving DecidableEq, Repr

/-- A monitor (section 6.1). -/
structure Monitor where
  state : MonState
  bind : Option MonBind
  side : Side
  count : Nat
  record : Option Crossing
  deriving DecidableEq, Repr

/-- An UNBOUND monitor (section 6.1). -/
def Monitor.unbound : Monitor := ⟨.unbound, none, .unknown, 0, none⟩

/-- An active capture context (section 8.1). -/
structure Capture where
  channel : Nat
  n : Nat
  limit : Nat
  acc : Int
  count : Nat
  deadline : Nat
  deriving DecidableEq, Repr

/-! ### Transaction tracking (chapter 3) -/

inductive ReqKind where
  | read
  | write
  deriving DecidableEq, Repr

/-- State of a table entry that is not FREE (R42). -/
inductive EntryState where
  | queued
  | issued
  | ready
  deriving DecidableEq, Repr

/-- The action recorded at acceptance (R5). -/
inductive Action where
  | pass
  | condWrite
  | condWriteShadow
  | rawWritePresent
  | condRead
  deriving DecidableEq, Repr

/-- Status of a host response (R58). -/
inductive HostStatus where
  | okay
  | memerr
  | expired
  | denied
  deriving DecidableEq, Repr

/-- A table entry that is not FREE (section 3.2). -/
structure Entry where
  state : EntryState
  kind : ReqKind
  hostTag : Fin 16
  addr : Word
  len : Nat
  num : Word
  window : Option (Fin 16)
  action : Action
  snapshot : Option (List ChanRec)
  pending : Nat
  worst : HostStatus
  buffer : List Word
  writeData : List WriteWord
  deriving DecidableEq, Repr

/-- Role of a HOST sub-request (R46). -/
inductive HostRole where
  | main
  | shadow
  deriving DecidableEq, Repr

/-- Origin and owner of a tag: HOST with its entry and role, or SWEEP with READ or WRITE (R46). -/
inductive Owner where
  | host (entry : Fin 32) (role : HostRole)
  | sweep (role : ReqKind)
  deriving DecidableEq, Repr

/-- The record of a tag (R46). -/
structure TagRecord where
  owner : Owner
  kind : ReqKind
  addr : Word
  len : Nat
  window : Option (Fin 16)
  hostTag : Option (Fin 16)
  issued : Bool
  deadline : Option Nat
  deriving DecidableEq, Repr

/-- State of a downstream tag (R45). -/
inductive Tag where
  | free
  | inUse (r : TagRecord)
  | quarantined (r : TagRecord)
  deriving DecidableEq, Repr

/-! ### The engine and the sweep unit (chapters 4 and 7) -/

/-- A sub-request toward memory (section 3.3). -/
structure SubRequest where
  tag : Fin 64
  kind : ReqKind
  addr : Word
  len : Nat
  data : List WriteWord
  deriving DecidableEq, Repr

inductive TurnSource where
  | host (entry : Fin 32)
  | sweep (role : ReqKind)
  deriving DecidableEq, Repr

/-- A turn in progress: what it took, and its sub-requests not yet issued (R64). -/
structure Turn where
  source : TurnSource
  subs : List SubRequest
  deriving DecidableEq, Repr

/-- Where the block at the cursor stands (section 7.1). -/
inductive SweepPhase where
  | readPending
  | readIssuing
  | readOut
  | writePending
  | writeIssuing
  | writeOut
  deriving DecidableEq, Repr

/-- The sweep context (section 7.1). Addresses are numbers, since `stop` and the cursor may reach
2^32. -/
structure Sweep where
  window : Fin 16
  start : Nat
  stop : Nat
  whole : Bool
  cursor : Nat
  done : Nat
  phase : SweepPhase
  tag : Option (Fin 64)
  block : Option (List Word)
  stopping : Bool
  restaled : Bool
  deriving DecidableEq, Repr

/-! ### Timebase and faults (chapter 9) -/

inductive TbSource where
  | internal
  | strobe
  deriving DecidableEq, Repr

inductive FaultKind where
  | align
  | boundary
  | length
  | torn
  | guard
  | memerrRead
  | memerrWrite
  | expired
  | late
  | stray
  | bootOneCopy
  | bootNone
  deriving DecidableEq, Repr

inductive Origin where
  | host
  | sweep
  | boot
  deriving DecidableEq, Repr

/-- A fault as it is offered to the list (section 9.3). -/
structure FaultInfo where
  kind : FaultKind
  origin : Origin
  window : Option (Fin 16)
  addr : Option Word
  hostTag : Option (Fin 16)
  deriving DecidableEq, Repr

/-- A record of the fault list (section 9.3). -/
structure FaultRecord where
  info : FaultInfo
  stamp : Word
  repeats : Nat
  deriving DecidableEq, Repr

/-! ### The management link (chapter 10) -/

inductive RxState where
  | hunt
  | header
  | payload
  | check
  deriving DecidableEq, Repr

/-- The receiver (section 10.3). -/
structure Receiver where
  state : RxState
  bytes : List Byte
  lastAt : Nat
  deriving DecidableEq, Repr

/-- Status codes of replies (R165). -/
inductive Status where
  | ok
  | busy
  | noUnit
  | noCommand
  | badLength
  | badValue
  | wrongState
  | overlap
  | duplicate
  | timeout
  | aborted
  | failed
  deriving DecidableEq, Repr

/-- A made reply (R167). -/
structure Reply where
  unit : Byte
  status : Status
  trn : Byte
  payload : List Byte
  deriving DecidableEq, Repr

/-- A reply slot (section 10.6). -/
inductive Slot where
  | free
  | held (trn unit : Byte)
  | queued (r : Reply)
  | sending (r : Reply)
  deriving DecidableEq, Repr

/-- An entry of the deferred-command list (R164). -/
structure DeferredEntry where
  trn : Byte
  unit : Byte
  code : Byte
  slot : Fin 16
  deriving DecidableEq, Repr

/-- The body of a notice, fixed when it is offered (R99, R151, R168). -/
inductive NoticeBody where
  | crossing (monitor : Fin 16) (window : Fin 16) (channel : Nat) (count : Nat) (record : Crossing)
  | fault (record : FaultRecord)
  deriving DecidableEq, Repr

/-- A notice in the queue, with its lost field (R168). -/
structure Notice where
  lost : Nat
  body : NoticeBody
  deriving DecidableEq, Repr

/-- The transmitter: idle, or sending one packet, which belongs to a slot when it is a reply
(R169). -/
inductive Transmitter where
  | idle
  | sending (slot : Option (Fin 16)) (packet : List Byte)
  /-- A BREAK has cut this packet off; its character in progress is still on the line (R171). -/
  | cutOff (packet : List Byte)
  deriving DecidableEq, Repr

/-- The five link counters (R161). -/
structure LinkCounters where
  framing : Nat
  crc : Nat
  badTrn : Nat
  overrun : Nat
  breaks : Nat
  deriving DecidableEq, Repr

/-! ### The boot store (chapter 11) -/

inductive CopyId where
  | a
  | b
  deriving DecidableEq, Repr

/-- A window record of an image (R179, R197). -/
structure BootWindow where
  defn : WindowDef
  chans : List ChanRec
  enabled : Bool
  deriving DecidableEq, Repr

/-- What the payload of a copy holds (R179). -/
structure BootImage where
  windows : Vector BootWindow 16
  monitors : Vector (Option MonBind) 16
  source : TbSource
  edge : Edge
  limit : Half
  deriving DecidableEq, Repr

/-- The four fields of a copy (R178); the payload is its 884 bytes (R197). -/
structure BootCopy where
  marker : Word
  generation : Word
  payload : List Byte
  crc : Word
  deriving DecidableEq, Repr

/-- A pending commit (R183). -/
structure PendingCommit where
  trn : Byte
  target : CopyId
  generation : Word
  image : BootImage
  deriving DecidableEq, Repr

/-- The status record of the boot store unit: a copy's generation is present when the copy is valid
(R178). -/
structure BootStatus where
  genA : Option Word
  genB : Option Word
  active : Option CopyId
  commit : Option PendingCommit
  deriving DecidableEq, Repr

/-! ### Start-up (section 11.2) -/

/-- The stages of start-up: RESET_N held; reading the boot store; loaded and not yet open; open
(R180 to R182). -/
inductive Phase where
  | held
  | reading
  | loaded
  | serving
  deriving DecidableEq, Repr

end Sys2Proof.Machine
end

