-- ==== Sys2Proof/Machine/Arithmetic.lean ====
section
/-! DEFINITION. Sample conditioning arithmetic (chapter 2): lanes, formats, gain, offset, clamp, and
the conditioned data of a burst. -/

namespace Sys2Proof.Machine

/-- A lane's signed reading of a 12-bit field: 0x800 to 0xFFF are negative (R26). -/
def signed12 (f : Nat) : Int := if f < 2048 then f else (f : Int) - 4096

/-- The signed value x of a raw value under a raw format (R26, R27). -/
def convert (f : RawFormat) (r : Half) : Int :=
  match f with
  | .s16 => r.toInt
  | .u16 => (r.toNat : Int) - 32768
  | .s12r => signed12 (r.toNat % 4096) * 16
  | .u12r => ((r.toNat % 4096 : Nat) - 2048 : Int) * 16
  | .u12l => ((r.toNat / 16 : Nat) - 2048 : Int) * 16

/-- x × G / 16384 rounded to nearest, ties toward +∞ (R28). The division is the floor, its divisor
being positive. -/
def scale (x : Int) (gain : Half) : Int := (x * (gain.toNat : Int) + 8192) / 16384

/-- The results of conditioning one raw value (R29, R30). -/
structure Conditioned where
  pre : Int
  y : Int
  clipped : Bool
  deriving DecidableEq, Repr

/-- Gain, offset and clamp of one sample (R28 to R30). -/
def condition (f : RawFormat) (c : ChanRec) (r : Half) : Conditioned :=
  let pre := scale (convert f r) c.gain + c.offset.toInt
  if pre < c.low.toInt then ⟨pre, c.low.toInt, true⟩
  else if c.high.toInt < pre then ⟨pre, c.high.toInt, true⟩
  else ⟨pre, pre, false⟩

/-- A conditioned value as a lane: 16-bit two's complement (R32). -/
def encodeLane (y : Int) : Half := BitVec.ofInt 16 y

/-- Lane 0, the two lower-addressed bytes (R22). -/
def lane0 (w : Word) : Half := w.setWidth 16

/-- Lane 1, the two higher-addressed bytes (R22). -/
def lane1 (w : Word) : Half := (w >>> 16).setWidth 16

/-- A word from its two lanes. -/
def ofLanes (l0 l1 : Half) : Word := l1 ++ l0

/-- The two byte enables of lane 0 and of lane 1. -/
def laneEnables (e : BitVec 4) : BitVec 2 × BitVec 2 := (e.setWidth 2, (e >>> 2).setWidth 2)

/-- A lane is complete when both its enables are set (R23). -/
def complete (e : BitVec 2) : Bool := e = 3

/-- A lane is torn when exactly one of its enables is set (R23). -/
def torn (e : BitVec 2) : Bool := e = 1 || e = 2

/-- A word of write data holds a torn lane. -/
def tornWord (w : WriteWord) : Bool :=
  torn (laneEnables w.enables).1 || torn (laneEnables w.enables).2

/-- The channel of the lane at a main-range byte address (R24, R25). -/
def channelOf (d : WindowDef) (addr : Nat) : Nat := (addr - d.base.toNat) / 2 % d.count

/-- The result for the lane at a main-range address (R25, R35). -/
def conditionLane (d : WindowDef) (chans : List ChanRec) (addr : Nat) (r : Half) : Conditioned :=
  condition d.format (chans.getD (channelOf d addr) .default) r

/-- A complete lane becomes the encoding of its conditioned value; another lane is kept (R33). -/
def conditionedLane (d : WindowDef) (chans : List ChanRec) (addr : Nat) (e : BitVec 2) (r : Half) :
    Half :=
  if complete e then encodeLane (conditionLane d chans addr r).y else r

/-- The conditioned data of one word of a write at a main-range address (R33). -/
def conditionWord (d : WindowDef) (chans : List ChanRec) (addr : Nat) (w : WriteWord) : WriteWord :=
  let e := laneEnables w.enables
  { w with data := ofLanes (conditionedLane d chans addr e.1 (lane0 w.data))
                           (conditionedLane d chans (addr + 2) e.2 (lane1 w.data)) }

/-- The conditioned data of a burst whose first word is at `addr` (R33). -/
def conditionBurst (d : WindowDef) (chans : List ChanRec) : Nat → List WriteWord → List WriteWord
  | _, [] => []
  | addr, w :: ws => conditionWord d chans addr w :: conditionBurst d chans (addr + 4) ws

/-- Words that carry no enables: both lanes are complete (R23). -/
def fullWords (ws : List Word) : List WriteWord := ws.map fun w => ⟨w, 15⟩

/-- The conditioned words of data read from memory, whose first word stands for `addr` (R33, R85). -/
def conditionRead (d : WindowDef) (chans : List ChanRec) (addr : Nat) (ws : List Word) : List Word :=
  (conditionBurst d chans addr (fullWords ws)).map WriteWord.data

/-- A sample's results as they are handed on (R77). -/
structure Sample where
  channel : Nat
  addr : Word
  result : Conditioned
  deriving DecidableEq, Repr

/-- The sample of a lane, if the lane is complete (R23, R34). -/
def laneSample (d : WindowDef) (chans : List ChanRec) (addr : Nat) (e : BitVec 2) (r : Half) :
    List Sample :=
  if complete e then [⟨channelOf d addr, BitVec.ofNat 32 addr, conditionLane d chans addr r⟩] else []

/-- The samples of a burst in sample order: ascending address, lane 0 before lane 1 (R24). -/
def burstSamples (d : WindowDef) (chans : List ChanRec) : Nat → List WriteWord → List Sample
  | _, [] => []
  | addr, w :: ws =>
    let e := laneEnables w.enables
    laneSample d chans addr e.1 (lane0 w.data)
      ++ laneSample d chans (addr + 2) e.2 (lane1 w.data)
      ++ burstSamples d chans (addr + 4) ws

end Sys2Proof.Machine
end

