-- ==== Sys2Proof/Machine/Operands.lean ====
section
/-! DEFINITION. Bytes: the field encodings, packet frame, check values and records of chapter 12, and
the reading of a command's payload fields. -/

namespace Sys2Proof.Machine

/-! ### Fields (R190) -/

/-- A two-byte field, least significant byte first (R190). -/
def le16 (v : Half) : List Byte := [v.setWidth 8, (v >>> 8).setWidth 8]

/-- A four-byte field, least significant byte first (R190). -/
def le32 (v : Word) : List Byte :=
  [v.setWidth 8, (v >>> 8).setWidth 8, (v >>> 16).setWidth 8, (v >>> 24).setWidth 8]

/-- A one-byte unsigned field. -/
def u8 (n : Nat) : Byte := BitVec.ofNat 8 n

/-- A two-byte unsigned field. -/
def u16 (n : Nat) : List Byte := le16 (BitVec.ofNat 16 n)

/-- A four-byte unsigned field. -/
def u32 (n : Nat) : List Byte := le32 (BitVec.ofNat 32 n)

/-- A two-byte two's complement field (R190). -/
def i16 (n : Int) : List Byte := le16 (BitVec.ofInt 16 n)

/-- A four-byte two's complement field (R190). -/
def i32 (n : Int) : List Byte := le32 (BitVec.ofInt 32 n)

/-- `n` zero bytes: reserved bytes, and the bytes of an absent optional field (R191). -/
def zeros (n : Nat) : List Byte := List.replicate n 0

/-- The byte at an offset of a payload. -/
def byteAt (p : List Byte) (i : Nat) : Byte := p.getD i 0

/-- The two-byte field at an offset, least significant byte first (R190). -/
def halfAt (p : List Byte) (i : Nat) : Half := byteAt p (i + 1) ++ byteAt p i

/-- The four-byte field at an offset, least significant byte first (R190). -/
def wordAt (p : List Byte) (i : Nat) : Word := halfAt p (i + 2) ++ halfAt p i

/-- A flags byte, from bit 0 upward (R191). The bits above those given, which R194, R195 and R197 neither
name nor mark reserved, are zero (DESIGN CHOICE, log 22; in a boot copy log 14). -/
def flagBits (bs : List Bool) : Byte :=
  u8 (bs.foldr (fun b acc => (if b then 1 else 0) + 2 * acc) 0)

/-! ### Enumerated fields (R190) -/

def WinState.code : WinState → Byte
  | .disabled => 0
  | .enabled => 1
  | .draining => 2

def Activity.code : Activity → Byte
  | .idle => 0
  | .sweeping => 1
  | .zeroing => 2

def DeferredKind.code : DeferredKind → Byte
  | .disable => 1
  | .sweep => 2
  | .zero => 3

def Mode.code : Mode → Byte
  | .present => 0
  | .store => 1
  | .storeBoth => 2

def RawFormat.code : RawFormat → Byte
  | .s16 => 0
  | .u16 => 1
  | .s12r => 2
  | .u12r => 3
  | .u12l => 4

def MonState.code : MonState → Byte
  | .unbound => 0
  | .armed => 1
  | .tripped => 2

def Direction.code : Direction → Byte
  | .rising => 0
  | .falling => 1
  | .both => 2

def MonMode.code : MonMode → Byte
  | .continuous => 0
  | .oneShot => 1

def Side.code : Side → Byte
  | .unknown => 0
  | .above => 1
  | .below => 2

/-- Code of a crossing direction and of the timebase edge. -/
def edgeCode : Edge → Byte
  | .rising => 0
  | .falling => 1

def TbSource.code : TbSource → Byte
  | .internal => 0
  | .strobe => 1

def Origin.code : Origin → Byte
  | .host => 0
  | .sweep => 1
  | .boot => 2

def FaultKind.code : FaultKind → Byte
  | .align => 1
  | .boundary => 2
  | .length => 3
  | .torn => 4
  | .guard => 5
  | .memerrRead => 6
  | .memerrWrite => 7
  | .expired => 8
  | .late => 9
  | .stray => 10
  | .bootOneCopy => 11
  | .bootNone => 12

/-- Code of a copy: A 0, B 1, none 2. -/
def copyCode : Option CopyId → Byte
  | some .a => 0
  | some .b => 1
  | none => 2

def linkRateCode : LinkRate → Byte
  | .baud115200 => 0
  | .baud1000000 => 1

/-- Status codes (R190). -/
def Status.code : Status → Byte
  | .ok => 0x00
  | .busy => 0x01
  | .noUnit => 0x02
  | .noCommand => 0x03
  | .badLength => 0x04
  | .badValue => 0x05
  | .wrongState => 0x06
  | .overlap => 0x07
  | .duplicate => 0x08
  | .timeout => 0x09
  | .aborted => 0x0A
  | .failed => 0x0B

/-- The mode a code names, if it is defined (R190). -/
def decodeMode (b : Byte) : Option Mode :=
  if b = 0 then some .present else if b = 1 then some .store
  else if b = 2 then some .storeBoth else none

/-- The raw format a code names, if it is defined (R190). -/
def decodeFormat (b : Byte) : Option RawFormat :=
  if b = 0 then some .s16 else if b = 1 then some .u16 else if b = 2 then some .s12r
  else if b = 3 then some .u12r else if b = 4 then some .u12l else none

/-- The channel count a code names, if it is defined (R190). -/
def decodeCount (b : Byte) : Option Nat :=
  if b = 1 then some 1 else if b = 2 then some 2 else if b = 4 then some 4 else none

/-- The monitor direction a code names, if it is defined (R190). -/
def decodeDirection (b : Byte) : Option Direction :=
  if b = 0 then some .rising else if b = 1 then some .falling
  else if b = 2 then some .both else none

/-- The monitor mode a code names, if it is defined (R190). -/
def decodeMonMode (b : Byte) : Option MonMode :=
  if b = 0 then some .continuous else if b = 1 then some .oneShot else none

/-- The timebase source a code names, if it is defined (R190). -/
def decodeSource (b : Byte) : Option TbSource :=
  if b = 0 then some .internal else if b = 1 then some .strobe else none

/-- The timebase edge a code names, if it is defined (R190). -/
def decodeEdge (b : Byte) : Option Edge :=
  if b = 0 then some .rising else if b = 1 then some .falling else none

/-- An index field below 16 (a window or a monitor). -/
def decodeIndex (b : Byte) : Option (Fin 16) :=
  if h : b.toNat < 16 then some ⟨b.toNat, h⟩ else none

/-- The unit code of window n (section 10.2). -/
def windowUnit (w : Fin 16) : Byte := u8 (0x10 + w.val)

/-! ### Check values (R196, R197) -/

/-- One bit of the CRC-16: the polynomial x^16 + x^12 + x^5 + 1, not reflected (R196). -/
def crc16Bit (c : Half) : Half :=
  if c.getLsbD 15 then (c <<< 1) ^^^ 0x1021 else c <<< 1

/-- One byte of the CRC-16, most significant bit first (R196). -/
def crc16Byte (c : Half) (b : Byte) : Half :=
  Nat.repeat crc16Bit 8 (c ^^^ (b.setWidth 16 <<< 8))

/-- The CRC-16 of a packet's bytes (R196). -/
def crc16 (bs : List Byte) : Half := bs.foldl crc16Byte 0xFFFF

/-- One bit of the CRC-32, least significant bit first (R197). -/
def crc32Bit (c : Word) : Word :=
  if c.getLsbD 0 then (c >>> 1) ^^^ 0xEDB88320 else c >>> 1

/-- One byte of the CRC-32 (R197). -/
def crc32Byte (c : Word) (b : Byte) : Word :=
  Nat.repeat crc32Bit 8 (c ^^^ b.setWidth 32)

/-- The CRC-32 of a boot copy's bytes, inverted at the end (R197). -/
def crc32 (bs : List Byte) : Word := ~~~ (bs.foldl crc32Byte 0xFFFFFFFF)

/-! ### Packets and records (R189, R194, R195) -/

/-- A packet on the line: sync, length, unit, command or status, TRN, payload, CRC (R189). -/
def framePacket (unit code trn : Byte) (payload : List Byte) : List Byte :=
  let body := [u8 payload.length, unit, code, trn] ++ payload
  [0xA5] ++ body ++ le16 (crc16 body)

/-- The packet of a reply (R189). -/
def replyPacket (r : Reply) : List Byte := framePacket r.unit r.status.code r.trn r.payload

/-- The 12 bytes of a crossing record (R194). -/
def crossingBytes (c : Crossing) : List Byte :=
  [edgeCode c.direction, 0] ++ i16 c.value ++ le32 c.addr ++ le32 c.stamp

/-- The 14 bytes of a fault record (R194). -/
def faultBytes (f : FaultRecord) : List Byte :=
  [f.info.kind.code, f.info.origin.code,
    flagBits [f.info.window.isSome, f.info.addr.isSome, f.info.hostTag.isSome],
    u8 ((f.info.window.map Fin.val).getD 0)]
  ++ le32 (f.info.addr.getD 0)
  ++ [u8 ((f.info.hostTag.map Fin.val).getD 0), u8 f.repeats]
  ++ le32 f.stamp

/-- The packet of a notice: a CROSSING notice of unit 0x20 and kind 0x80, a FAULT notice of unit 0x30
and kind 0x81, TRN 255 (R189, R190, R195). -/
def noticePacket (n : Notice) : List Byte :=
  match n.body with
  | .crossing m w ch count rec =>
    framePacket 0x20 0x80 255
      ([u8 n.lost, u8 m.val, u8 w.val, u8 ch] ++ u16 count ++ crossingBytes rec)
  | .fault f => framePacket 0x30 0x81 255 ([u8 n.lost] ++ faultBytes f)

end Sys2Proof.Machine
end

