-- ==== Sys2Proof/Machine/Image.lean ====
section
/-! DEFINITION. Boot copies: the layout of a copy and of its payload (R197), validity (R178), and the
factory contents (R188). -/

namespace Sys2Proof.Machine

/-- The exact marker value of a valid copy (R197). -/
def bootMarker : Word := 0x5A3C9617

/-! ### Writing a payload (R197) -/

/-- The 8 bytes of a channel record (R197). -/
def chanBytes (c : ChanRec) : List Byte := le16 c.gain ++ le16 c.offset ++ le16 c.low ++ le16 c.high

/-- The four channel records of a window record; those at or above the channel count are zero
(R197). -/
def chansBytes (chans : List ChanRec) : List Byte :=
  (List.range 4).flatMap fun i =>
    match chans[i]? with
    | some c => chanBytes c
    | none => zeros 8

/-- The 46 bytes of a window record (R197). An absent shadow base, and bits 2 to 7 of the flags byte, are
stored as zero (DESIGN CHOICE, log 14). -/
def windowBytes (w : BootWindow) : List Byte :=
  le32 w.defn.base ++ u16 w.defn.pages
    ++ [w.defn.mode.code, w.defn.format.code, u8 w.defn.count,
        flagBits [w.defn.shadow.isSome, w.enabled]]
    ++ le32 (w.defn.shadow.getD 0) ++ chansBytes w.chans

/-- The 9 bytes of a monitor record (R197). The fields of an unbound monitor, and bits 1 to 7 of the
flags byte, are stored as zero (DESIGN CHOICE, log 14). -/
def monitorBytes : Option MonBind → List Byte
  | none => zeros 9
  | some m =>
    [1, u8 m.window.val, u8 m.channel] ++ le16 m.level ++ u16 m.hysteresis
      ++ [m.direction.code, m.mode.code]

/-- The 884 bytes of a payload (R197). -/
def encodeImage (i : BootImage) : List Byte :=
  i.windows.toList.flatMap windowBytes ++ i.monitors.toList.flatMap monitorBytes
    ++ [i.source.code, edgeCode i.edge] ++ le16 i.limit

/-! ### Reading a payload (R197)

A valid copy holds only contents that the part wrote (R179); a code that no field defines is read as
the field's last code, which no such copy meets (DESIGN CHOICE, log 14). -/

/-- The channel record at an offset. -/
def readChan (p : List Byte) (i : Nat) : ChanRec :=
  ⟨halfAt p i, halfAt p (i + 2), halfAt p (i + 4), halfAt p (i + 6)⟩

/-- A window record from its 46 bytes: the channel records below the channel count are loaded. Bits 2 to 7
of the flags byte are ignored (DESIGN CHOICE, log 14). -/
def readWindow (p : List Byte) : BootWindow where
  defn :=
    { base := wordAt p 0
      pages := (halfAt p 4).toNat
      mode := (decodeMode (byteAt p 6)).getD .storeBoth
      format := (decodeFormat (byteAt p 7)).getD .u12l
      count := (byteAt p 8).toNat
      shadow := if (byteAt p 9).getLsbD 0 then some (wordAt p 10) else none }
  chans := (List.range (min (byteAt p 8).toNat 4)).map fun i => readChan p (14 + 8 * i)
  enabled := (byteAt p 9).getLsbD 1

/-- A monitor record from its 9 bytes. Bits 1 to 7 of the flags byte are ignored (DESIGN CHOICE,
log 14). -/
def readMonitor (p : List Byte) : Option MonBind :=
  if (byteAt p 0).getLsbD 0 then
    some
      { window := Fin.ofNat 16 (byteAt p 1).toNat
        channel := (byteAt p 2).toNat
        level := halfAt p 3
        hysteresis := (halfAt p 5).toNat
        direction := (decodeDirection (byteAt p 7)).getD .both
        mode := (decodeMonMode (byteAt p 8)).getD .oneShot }
  else none

/-- The contents of a payload (R197). -/
def decodeImage (p : List Byte) : BootImage where
  windows := Vector.ofFn fun i : Fin 16 => readWindow ((p.drop (46 * i.val)).take 46)
  monitors := Vector.ofFn fun i : Fin 16 => readMonitor ((p.drop (736 + 9 * i.val)).take 9)
  source := (decodeSource (byteAt p 880)).getD .strobe
  edge := (decodeEdge (byteAt p 881)).getD .falling
  limit := halfAt p 882

/-! ### Copies (R178, R188) -/

/-- The CRC-32 of a copy, over its generation and payload (R197). -/
def copyCrc (generation : Word) (payload : List Byte) : Word := crc32 (le32 generation ++ payload)

/-- A copy written whole from an image (R184). -/
def writtenCopy (generation : Word) (i : BootImage) : BootCopy :=
  let payload := encodeImage i
  ⟨bootMarker, generation, payload, copyCrc generation payload⟩

/-- A copy is valid when its marker is exact and its CRC-32 matches (R178). -/
def BootCopy.valid (c : BootCopy) : Bool :=
  c.marker = bootMarker && c.crc = copyCrc c.generation c.payload

/-- The generation of a copy that is valid (R178). -/
def BootCopy.validGeneration (c : BootCopy) : Option Word :=
  if c.valid then some c.generation else none

/-- The 896 bytes of a copy as the store holds them: marker, generation, payload and CRC-32, the words
least significant byte first (R197). -/
def BootCopy.bytes (c : BootCopy) : List Byte :=
  le32 c.marker ++ le32 c.generation ++ c.payload ++ le32 c.crc

/-- The copy that 896 bytes of the store are (R197). -/
def BootCopy.ofBytes (p : List Byte) : BootCopy :=
  ⟨wordAt p 0, wordAt p 4, (p.drop 8).take 884, wordAt p 892⟩

/-- A copy never written reads as all 0xFF bytes (R197). -/
def blankCopy : BootCopy := .ofBytes (List.replicate 896 0xFF)

/-- The default configuration: what is loaded when no copy is valid (R1, R48, R93, R145), and the
factory contents of copy A (R188). -/
def defaultImage : BootImage where
  windows := Vector.replicate 16 ⟨.default, [.default], false⟩
  monitors := Vector.replicate 16 none
  source := .internal
  edge := .rising
  limit := 1000

/-- Copy A as it leaves the factory (R188). -/
def factoryCopyA : BootCopy := writtenCopy 1 defaultImage

end Sys2Proof.Machine
end

