-- ==== Sys2Proof/Machine/State.lean ====
section
/-! DEFINITION. The state of the NB4160: every piece the spec names, as plain data, and its value at
hardware reset. INVENTORY.md lists each field with its rule. -/

namespace Sys2Proof.Machine

/-- Reasons to stop. The block has none: each command leaves a next state, and what the spec calls a
fault is a record of the fault list (R148). -/
inductive Fault where
  deriving DecidableEq, Repr

/-- Reasons to refuse a command. -/
inductive Refusal where
  /-- The command has no meaning yet. Raised by an arm of `exec`, never by a meaning; safe. No arm
  raises it now. -/
  | notModelled (mnemonic : String)
  deriving DecidableEq, Repr

/-- The state of the part, and the queue of waiting commands. -/
structure State where
  /-- Commands waiting, first in, first out (the model's own). -/
  pending : List Instr
  /-- Free values used so far (the model's own, log 13). -/
  freeCount : Nat
  /-- Stage of start-up (R180 to R182). -/
  phase : Phase
  /-- Bit rate sampled from LRATE (R157). -/
  linkRate : LinkRate
  /-- The internal microsecond base (R143). -/
  usBase : Nat
  /-- The timebase (R144). -/
  tbValue : Word
  tbSource : TbSource
  tbEdge : Edge
  /-- The window table (section 1.1). -/
  windows : Vector Window 16
  /-- Statistics records, by window and slot (section 6.5). -/
  stats : Vector (Vector Stats 4) 16
  /-- Capture contexts, by window (section 8.1). -/
  captures : Vector (Option Capture) 16
  /-- The monitor bank (section 6.1). -/
  monitors : Vector Monitor 16
  /-- The transaction table; `none` is FREE (section 3.2). -/
  entries : Vector (Option Entry) 32
  /-- The acceptance counter (R38). -/
  accCounter : Word
  /-- The entry on offer on the response channel (R57). -/
  offered : Option (Fin 32)
  /-- The intake queue (R62). -/
  intake : List (Fin 32)
  /-- The downstream tags (R45). -/
  tags : Vector Tag 64
  /-- The D response limit (R48). -/
  limit : Half
  /-- The engine's turn (R64). -/
  turn : Option Turn
  /-- The fairness count (R68). -/
  fairness : Nat
  /-- The sweep context (section 7.1). -/
  sweep : Option Sweep
  /-- The fault list, its overflow flag, and the ALERT pin (R148, R150, R155). -/
  faults : List FaultRecord
  overflow : Bool
  alert : Bool
  /-- The receiver (section 10.3). -/
  rx : Receiver
  /-- The reply slots (R166). -/
  slots : Vector Slot 16
  /-- The reply queue (R166). -/
  replyQueue : List (Fin 16)
  /-- The deferred-command list (R164). -/
  deferred : List DeferredEntry
  /-- The notice queue and the lost count (R168). -/
  notices : List Notice
  lost : Nat
  /-- The transmitter and its reply run count (R169). -/
  tx : Transmitter
  runCount : Nat
  /-- The link counters (R161). -/
  counters : LinkCounters
  /-- LINK_RX is still low after a detected BREAK (R171). -/
  breakLow : Bool
  /-- The moment from which a low LINK_RX is timed at the earliest, on the microsecond base: the last one
  before the present at which the line was high, or the opening (R171). -/
  rxHighAt : Nat
  /-- LINK_RX has been high since the base's last step: a stop bit was (R157). -/
  rxHigh : Bool
  /-- The two boot copies, non-volatile (R178). -/
  copyA : BootCopy
  copyB : BootCopy
  /-- The status record of the boot store unit (R178). -/
  boot : BootStatus
  deriving DecidableEq, Repr

/-- The part as power-on leaves it, RESET_N held (R180), with the factory boot store (R188). What the
spec leaves open is marked in logs 4 and 7 to 9 (DESIGN CHOICE). -/
def State.reset : State where
  pending := []
  freeCount := 0
  phase := .held
  linkRate := .baud115200
  usBase := 0
  tbValue := 0
  tbSource := .internal
  tbEdge := .rising
  windows := Vector.replicate 16 .default
  stats := Vector.replicate 16 (Vector.replicate 4 .empty)
  captures := Vector.replicate 16 none
  monitors := Vector.replicate 16 .unbound
  entries := Vector.replicate 32 none
  accCounter := 0
  offered := none
  intake := []
  tags := Vector.replicate 64 .free
  limit := 1000
  turn := none
  fairness := 0
  sweep := none
  faults := []
  overflow := false
  alert := false
  rx := ⟨.hunt, [], 0⟩
  slots := Vector.replicate 16 .free
  replyQueue := []
  deferred := []
  notices := []
  lost := 0
  tx := .idle
  runCount := 0
  counters := ⟨0, 0, 0, 0, 0⟩
  breakLow := false
  rxHighAt := 0
  rxHigh := false
  copyA := factoryCopyA
  copyB := blankCopy
  boot := ⟨none, none, none, none⟩

end Sys2Proof.Machine
end

