-- ==== Sys2Proof/Machine/Flags.lean ====
section
/-! DEFINITION. Saturation, status severity, address ranges, and the command and window checks that
other chapters cite: worst status (R55), ranges (R2), conflicts (R9), the state check (R12) and the
definition check (R13). -/

namespace Sys2Proof.Machine

/-- A saturating counter stops at its largest value (00, Conventions). -/
def satInc (max n : Nat) : Nat := if n < max then n + 1 else n

/-! ### Status (R55) -/

/-- Severity: DENIED > EXPIRED > MEMERR > OKAY (R55). -/
def HostStatus.severity : HostStatus → Nat
  | .okay => 0
  | .memerr => 1
  | .expired => 2
  | .denied => 3

/-- The more severe of two statuses (R55). -/
def HostStatus.combine (a b : HostStatus) : HostStatus := if a.severity < b.severity then b else a

/-! ### Ranges (R2, R9) -/

/-- The half-open range [lo, hi) of addresses. -/
structure Range where
  lo : Nat
  hi : Nat
  deriving DecidableEq, Repr

/-- An address lies in a range. -/
def Range.contains (r : Range) (a : Nat) : Bool := r.lo ≤ a && a < r.hi

/-- Two ranges share at least one byte address (R9). -/
def Range.overlaps (r t : Range) : Bool := max r.lo t.lo < min r.hi t.hi

/-- The main range of a definition (R2). -/
def WindowDef.main (d : WindowDef) : Range := ⟨d.base.toNat, d.base.toNat + d.pages * 4096⟩

/-- The shadow range of a definition, if it has one (R2). -/
def WindowDef.shadowRange (d : WindowDef) : Option Range :=
  match d.mode, d.shadow with
  | .storeBoth, some b => some ⟨b.toNat, b.toNat + d.pages * 4096⟩
  | _, _ => none

/-- The ranges of a definition: main, and shadow when present. -/
def WindowDef.ranges (d : WindowDef) : List Range := d.main :: d.shadowRange.toList

/-- An address lies in the main range (R4). -/
def WindowDef.inMain (d : WindowDef) (a : Word) : Bool := d.main.contains a.toNat

/-- An address lies in the shadow range (R7). -/
def WindowDef.inShadow (d : WindowDef) (a : Word) : Bool := d.shadowRange.any (·.contains a.toNat)

/-- A range of either definition overlaps a range of the other: the three conditions of R9. -/
def WindowDef.meets (d e : WindowDef) : Bool := d.ranges.any fun r => e.ranges.any r.overlaps

/-- A window that is ENABLED or DRAINING keeps its ranges (R9). -/
def Window.inService (w : Window) : Bool := w.state != .disabled

/-- The conditions of R13 on a definition, given with its fields decoded. -/
def WindowDef.acceptable (d : WindowDef) : Bool :=
  d.base.toNat % 4096 = 0
    && (1 ≤ d.pages && d.pages ≤ 4096)
    && d.base.toNat + d.pages * 4096 ≤ 2 ^ 32
    && (d.count = 1 || d.count = 2 || d.count = 4)
    && (d.shadow.isSome == (d.mode == .storeBoth))
    && d.shadow.all (fun b => b.toNat % 4096 = 0 && b.toNat + d.pages * 4096 ≤ 2 ^ 32)
    && d.shadowRange.all (fun r => !r.overlaps d.main)

/-! ### The state check of window commands (R12) -/

/-- The commands of a window unit (R12). -/
inductive WinCommand where
  | define
  | setChannel
  | enable
  | disable
  | query
  | sweep
  | zeroCapture
  | abort
  | readStats
  deriving DecidableEq, Repr

/-- The columns of R12's table: DISABLED, ENABLED and IDLE, ENABLED and busy, DRAINING. -/
inductive Condition where
  | disabled
  | idle
  | busy
  | draining
  deriving DecidableEq, Repr

/-- The column a window stands in (R12). -/
def Window.condition (w : Window) : Condition :=
  match w.state, w.activity with
  | .disabled, _ => .disabled
  | .draining, _ => .draining
  | .enabled, .idle => .idle
  | .enabled, _ => .busy

/-- R12's table: the refusal, or none where the command is taken. -/
def stateCheck : WinCommand → Condition → Option Status
  | .query, _ => none
  | .readStats, _ => none
  | .define, .disabled => none
  | .define, _ => some .wrongState
  | .enable, .disabled => none
  | .enable, _ => some .wrongState
  | .setChannel, .disabled => none
  | .setChannel, .idle => none
  | .setChannel, _ => some .busy
  | .abort, .busy => none
  | .abort, _ => some .wrongState
  | .disable, .idle => none
  | .disable, .busy => some .busy
  | .disable, _ => some .wrongState
  | .sweep, .idle => none
  | .sweep, .busy => some .busy
  | .sweep, _ => some .wrongState
  | .zeroCapture, .idle => none
  | .zeroCapture, .busy => some .busy
  | .zeroCapture, _ => some .wrongState

end Sys2Proof.Machine
end

