-- ==== Sys2Proof/Machine/Ops.lean ====
section
/-! DEFINITION. The shared operations over State: updates of one table element, notices, faults,
replies, the response arbiter, and what an answered sub-request does to its entry. -/

namespace Sys2Proof.Machine

/-- A command's outcome. -/
abbrev Result := Host.Outcome State Fault Refusal

namespace State

/-! ### One element of a table -/

def setWindow (s : State) (w : Fin 16) (x : Window) : State :=
  { s with windows := s.windows.set w x }

def setEntry (s : State) (i : Fin 32) (x : Option Entry) : State :=
  { s with entries := s.entries.set i x }

def setTag (s : State) (t : Fin 64) (x : Tag) : State := { s with tags := s.tags.set t x }

def setSlot (s : State) (k : Fin 16) (x : Slot) : State := { s with slots := s.slots.set k x }

def setMonitor (s : State) (m : Fin 16) (x : Monitor) : State :=
  { s with monitors := s.monitors.set m x }

def setCapture (s : State) (w : Fin 16) (x : Option Capture) : State :=
  { s with captures := s.captures.set w x }

def setStats (s : State) (w : Fin 16) (c : Fin 4) (x : Stats) : State :=
  { s with stats := s.stats.set w ((s.stats[w]).set c x) }

/-! ### Time and start-up -/

/-- The internal millisecond base: one step every 1000 of the microsecond base (R143, log 4). -/
def msBase (s : State) : Nat := s.usBase / 1000

/-- The configuration has been loaded: the timebase counts and the notice queue takes notices (R145,
R168). -/
def loadDone (s : State) : Bool := s.phase = .loaded || s.phase = .serving

/-- The receiver takes bytes: the link is open and no BREAK holds it (R170, R171). -/
def linkReceives (s : State) : Bool := s.phase = .serving && !s.breakLow

/-- A low line is timed from now: the link opens, or a BREAK has ended (R171). -/
def timeLine (s : State) : State := { s with rxHighAt := s.usBase }

/-- A stop bit is high (R157): from the base's next step on, a low line is timed from now. Till then it
reaches the part together with a BREAK (R172). -/
def seeHigh (s : State) : State := { s with rxHigh := true }

/-- LINK_RX can have been low continuously for 1 ms, measured on the microsecond base and timed from the
opening at the earliest (R171). -/
def lineLowFor1ms (s : State) : Bool := s.rxHighAt + 1000 ≤ s.usBase

/-- The microsecond base steps (R143). -/
def stepBase (s : State) : State :=
  { s with
    usBase := s.usBase + 1
    rxHighAt := if s.rxHigh then s.usBase else s.rxHighAt
    rxHigh := false }

/-! ### Notices and faults (R149, R151, R168) -/

/-- A notice is offered (R168). -/
def offerNotice (s : State) (b : NoticeBody) : State :=
  if s.loadDone && s.notices.length < 8 then
    { s with notices := s.notices ++ [⟨s.lost, b⟩], lost := 0 }
  else { s with lost := satInc 255 s.lost }

/-- A fault has the kind, origin and window of a record: it coalesces into it (R149 case 1). -/
def coalesces (r : FaultRecord) (f : FaultInfo) : Bool :=
  r.info.kind = f.kind && r.info.origin = f.origin && r.info.window = f.window

/-- A fault is appended as a new record, with its notice; ALERT is driven (R149 case 2, R151,
R155). -/
def appendFault (s : State) (f : FaultInfo) : State :=
  let r : FaultRecord := ⟨f, s.tbValue, 1⟩
  { s with faults := s.faults ++ [r], alert := true }.offerNotice (.fault r)

/-- A fault is offered to the list (R149): coalesce with the newest record, append, or discard. -/
def offerFault (s : State) (f : FaultInfo) : State :=
  match s.faults.getLast? with
  | some r =>
    if coalesces r f then
      { s with faults := s.faults.dropLast ++ [{ r with repeats := satInc 255 r.repeats }] }
    else if s.faults.length < 8 then s.appendFault f
    else { s with overflow := true }
  | none => s.appendFault f

/-! ### Replies (R164, R166, R167) -/

/-- A made reply joins the tail of the reply queue in its slot (R166, R167). -/
def queueReply (s : State) (k : Fin 16) (r : Reply) : State :=
  { s.setSlot k (.queued r) with replyQueue := s.replyQueue ++ [k] }

/-- The deferred command of a TRN completes: its list entry is removed and its reply is made in the
slot it held (R164, R166). -/
def completeDeferred (s : State) (trn : Byte) (status : Status) (payload : List Byte) : State :=
  match s.deferred.find? (·.trn = trn) with
  | some d =>
    { s with deferred := s.deferred.filter (·.trn ≠ trn) }.queueReply d.slot
      ⟨d.unit, status, trn, payload⟩
  | none => s

/-- A window's deferred command ends: it is removed from the window, and its reply is made (R11). -/
def endWindowCommand (s : State) (w : Fin 16) (status : Status) (payload : List Byte) : State :=
  let s' := s.setWindow w { s.windows[w] with deferred := none }
  match s.windows[w].deferred with
  | some d => s'.completeDeferred d.trn status payload
  | none => s'

/-- A window's long operation ends: the activity becomes IDLE and the deferred reply is made (R121,
R123, R125, R126, R136, R138, R140). -/
def endActivity (s : State) (w : Fin 16) (status : Status) (payload : List Byte) : State :=
  (s.setWindow w { s.windows[w] with activity := .idle }).endWindowCommand w status payload

/-! ### Stale (R10, R122) -/

/-- The stale flag is set; a sweep running on the window is marked restaled (R10, R122). -/
def setStale (s : State) (w : Fin 16) : State :=
  { s.setWindow w { s.windows[w] with stale := true } with
    sweep := s.sweep.map fun c => if c.window = w then { c with restaled := true } else c }

/-! ### The response arbiter (R57, R58) -/

/-- Entry number a is older than b (R38). -/
def older (a b : Word) : Bool := 1 ≤ (b - a).toNat && (b - a).toNat ≤ 2 ^ 31 - 1

/-- An entry is READY, and no older non-FREE entry has its host tag (R57). -/
def eligible (s : State) (i : Fin 32) : Bool :=
  match s.entries[i] with
  | none => false
  | some e =>
    e.state = .ready
      && (List.finRange 32).all fun j =>
        match s.entries[j] with
        | none => true
        | some f => !(f.hostTag = e.hostTag && older f.num e.num)

/-- Entry i is older than entry j. -/
def olderEntry (s : State) (i j : Fin 32) : Bool :=
  match s.entries[i], s.entries[j] with
  | some e, some f => older e.num f.num
  | _, _ => false

/-- The eligible entry with the lowest acceptance number (R57). -/
def choice (s : State) : Option (Fin 32) :=
  (List.finRange 32).find? fun i =>
    s.eligible i && (List.finRange 32).all fun j => !(s.eligible j && s.olderEntry j i)

/-- An empty response channel is offered the arbiter's choice (R57). -/
def offerResponse (s : State) : State :=
  match s.offered with
  | some _ => s
  | none => { s with offered := s.choice }

/-- The data words of an entry's response: a write has none; a read has its buffer when the status is
OKAY, and as many zero words otherwise (R58). -/
def responseWords (e : Entry) : List Word :=
  match e.kind with
  | .write => []
  | .read => if e.worst = .okay then e.buffer else List.replicate e.buffer.length 0

/-- The response on offer to the host: host tag, status, data (R58). An output of the part. -/
def offeredResponse (s : State) : Option (Fin 16 × HostStatus × List Word) :=
  s.offered.bind fun i => s.entries[i].map fun e => (e.hostTag, e.worst, responseWords e)

/-- The sub-request that waits at the D port (R44, R64). An output of the part. -/
def dRequest (s : State) : Option SubRequest := s.turn.bind fun t => t.subs.head?

/-- The packet on LINK_TX, if one is being sent, or has been cut off inside a character (R169, R171). An
output of the part. -/
def linkTx (s : State) : Option (List Byte) :=
  match s.tx with
  | .idle => none
  | .sending _ p => some p
  | .cutOff p => some p

/-! ### An answered sub-request (R50, R53, R55, R56) -/

/-- One answer or expiry: the pending count falls, the status is combined, and the entry becomes
READY at 0 (R55, R56). -/
def answered (e : Entry) (st : HostStatus) : Entry :=
  { e with
    pending := e.pending - 1
    worst := e.worst.combine st
    state := if e.pending - 1 = 0 then .ready else e.state }

/-- A failed sub-request of a COND_WRITE_SHADOW entry sets its window's stale flag (R10). -/
def markStale (s : State) (e : Entry) (st : HostStatus) : State :=
  match e.window with
  | some w => if e.action = .condWriteShadow && st ≠ .okay then s.setStale w else s
  | none => s

/-- A HOST sub-request is answered with a status (R50, R53). -/
def answerEntry (s : State) (i : Fin 32) (st : HostStatus) : State :=
  match s.entries[i] with
  | none => s
  | some e => (s.setEntry i (some (answered e st))).markStale e st

/-- Memory's words in a buffer of `len` words: fewer leave zeros, more are discarded (R83, R117). -/
def fitWords (len : Nat) (ws : List Word) : List Word :=
  ws.take len ++ List.replicate (len - ws.length) 0

/-- The data buffer an OKAY read leaves: the words placed, and for COND_READ the words placed
conditioned with the entry's snapshot (R83 to R85). -/
def placedBuffer (s : State) (e : Entry) (ws : List Word) : List Word :=
  match e.action, e.window, e.snapshot with
  | .condRead, some w, some chans =>
    fitWords e.len (conditionRead s.windows[w].defn chans e.addr.toNat (ws.take e.len))
  | _, _, _ => fitWords e.len ws

/-- The read return path: the words of an OKAY host read go into the entry's buffer (R82). -/
def placeRead (s : State) (i : Fin 32) (ws : List Word) : State :=
  match s.entries[i] with
  | none => s
  | some e => s.setEntry i (some { e with buffer := s.placedBuffer e ws })

/-! ### Tags and claims (R46, R65 to R69) -/

/-- Tag t is free. -/
def tagFree (s : State) (t : Fin 64) : Bool := s.tags[t] = .free

/-- The free tags, lowest first (R46). -/
def freeTags (s : State) : List (Fin 64) := (List.finRange 64).filter s.tagFree

/-- The number of sub-requests, and so of tags, of an action (R46). -/
def tagsNeeded (a : Action) : Nat := if a = .condWriteShadow then 2 else 1

/-- The sweep block in flight: its main span (R69). -/
def blockInFlight (s : State) : Option Range :=
  s.sweep.bind fun c =>
    if c.phase = .readOut || c.phase = .writePending || c.phase = .writeIssuing then
      some ⟨c.cursor, c.cursor + 64⟩
    else none

/-- A WRITE whose span shares a byte with the block in flight is held (R69). -/
def held (s : State) (e : Entry) : Bool :=
  e.kind = .write
    && s.blockInFlight.any fun b => b.overlaps ⟨e.addr.toNat, e.addr.toNat + 4 * e.len⟩

/-- The entry at the head of the intake queue. -/
def headEntry (s : State) : Option (Fin 32 × Entry) :=
  s.intake.head?.bind fun i => s.entries[i].map fun e => (i, e)

/-- The host claim is ready (R65). -/
def hostReady (s : State) : Bool :=
  match s.headEntry with
  | some (_, e) => !s.held e && tagsNeeded e.action ≤ s.freeTags.length
  | none => false

/-- The sweep unit presents a turn: a read in READ_PENDING, a write in WRITE_PENDING (R66, R112). -/
def sweepPresents (s : State) : Option ReqKind :=
  s.sweep.bind fun c =>
    match c.phase with
    | .readPending => some .read
    | .writePending => some .write
    | _ => none

/-- The sweep claim is ready (R66). -/
def sweepReady (s : State) : Bool := s.sweepPresents.isSome && !s.freeTags.isEmpty

end State

/-- What the engine arbiter grants. -/
inductive Grant where
  | host
  | sweep
  deriving DecidableEq, Repr

/-- The engine arbiter's choice between turns: R67's table. -/
def State.grant (s : State) : Option Grant :=
  if s.turn.isSome then none
  else if s.hostReady then
    if s.sweepReady && 8 ≤ s.fairness then some .sweep else some .host
  else if s.sweepReady then some .sweep
  else none

end Sys2Proof.Machine
end

