-- ==== Sys2Proof/Machine/Dispatcher.lean ====
section
/-! DEFINITION. The link dispatcher: TRN check, slot reservation and the duplicate check, and the two
ways a unit answers a command (R162 to R164, R166, R167). -/

namespace Sys2Proof.Machine

/-- What a command carries past the dispatcher: its unit code, its TRN and its reserved slot (R162). -/
structure Ctx where
  unit : Byte
  trn : Byte
  slot : Fin 16
  deriving DecidableEq, Repr

namespace State

/-- An immediate reply, in the command's own slot (R166, R167). -/
def reply (s : State) (c : Ctx) (status : Status) (payload : List Byte) : State :=
  s.queueReply c.slot ⟨c.unit, status, c.trn, payload⟩

/-- A refusal: a status and no payload (R165). -/
def refuse (s : State) (c : Ctx) (status : Status) : State := s.reply c status []

/-- A deferred command is added to the dispatcher's list; its slot stays HELD (R164, R166). -/
def defer (s : State) (c : Ctx) (code : Byte) : State :=
  { s with deferred := s.deferred ++ [⟨c.trn, c.unit, code, c.slot⟩] }

/-- The free slot with the lowest number (R166). -/
def freeSlot (s : State) : Option (Fin 16) := (List.finRange 16).find? fun k => s.slots[k] = .free

/-- The TRN is that of a pending deferred command (R163). -/
def trnPending (s : State) (trn : Byte) : Bool := s.deferred.any (·.trn = trn)

/-- A good packet at the dispatcher: TRN, slot, duplicate, and then the command's own handling (R162,
R163). The stop bit of its last byte has just been high (R157). -/
def dispatch (s : State) (unit trn : Byte) (take : Ctx → State → State) : State :=
  let h := s.seeHigh
  if trn = 0 || trn = 255 then
    { h with counters := { s.counters with badTrn := satInc 65535 s.counters.badTrn } }
  else
    match s.freeSlot with
    | none => { h with counters := { s.counters with overrun := satInc 65535 s.counters.overrun } }
    | some k =>
      let c : Ctx := ⟨unit, trn, k⟩
      let r := h.setSlot k (.held trn unit)
      if s.trnPending trn then r.refuse c .duplicate else take c r

/-- A link command handed over while the link takes packets; a closed link or a BREAK takes none
(R170, R171; log 3). -/
def command (s : State) (unit trn : Byte) (take : Ctx → State → State) : State :=
  if s.linkReceives then s.dispatch unit trn take else s

end State

end Sys2Proof.Machine
end

