-- ==== Sys2Proof/Machine/Boot.lean ====
section
/-! DEFINITION. The boot store unit (chapter 11): reading the store, loading an image, BOOT_COMMIT and
its end, BOOT_RELOAD and BOOT_QUERY. -/

namespace Sys2Proof.Machine

/-- The unit code of BOOT (section 10.2). -/
def bootUnit : Byte := 0x40

namespace State

/-- One of the two copies. -/
def copy (s : State) : CopyId → BootCopy
  | .a => s.copyA
  | .b => s.copyB

def setCopy (s : State) (id : CopyId) (c : BootCopy) : State :=
  match id with
  | .a => { s with copyA := c }
  | .b => { s with copyB := c }

/-- A copy's format marker is cleared, so it is invalid (R183, R197). -/
def clearMarker (s : State) (id : CopyId) : State := s.setCopy id { s.copy id with marker := 0 }

/-- Copies that have become invalid since they were last written (R186; log 10). -/
def loseCopies (s : State) (lostA lostB : Bool) : State :=
  let s' := if lostA then s.clearMarker .a else s
  if lostB then s'.clearMarker .b else s'

end State

/-! ### The status record (R178) -/

/-- The active copy: the valid one of higher generation, A when they are equal (R178). -/
def activeCopy (genA genB : Option Word) : Option CopyId :=
  match genA, genB with
  | none, none => none
  | some _, none => some .a
  | none, some _ => some .b
  | some a, some b => if a.toNat < b.toNat then some .b else some .a

/-- A copy's generation in the status record, when it is valid. -/
def BootStatus.generation (b : BootStatus) : CopyId → Option Word
  | .a => b.genA
  | .b => b.genB

def BootStatus.setGeneration (b : BootStatus) (id : CopyId) (g : Option Word) : BootStatus :=
  match id with
  | .a => { b with genA := g }
  | .b => { b with genB := g }

/-- The active copy's generation, if a copy is active. -/
def BootStatus.activeGeneration (b : BootStatus) : Option Word := b.active.bind b.generation

/-- The store is read: the status record takes the validity and generation of each copy and the
active copy, and no commit is pending (R181 step 1, R186). -/
def State.readStore (s : State) : State :=
  let a := s.copyA.validGeneration
  let b := s.copyB.validGeneration
  { s with boot := ⟨a, b, activeCopy a b, none⟩ }

/-- The image the status record's active copy holds, or the defaults (R1, R48, R93, R145, R181). -/
def State.activeImage (s : State) : BootImage :=
  match s.boot.active with
  | some id => decodeImage (s.copy id).payload
  | none => defaultImage

/-! ### Loading (R1, R93, R105, R145, R48) -/

/-- A window entry from its record (R1). -/
def BootWindow.load (b : BootWindow) : Window :=
  ⟨b.defn, b.chans, if b.enabled then .enabled else .disabled, .idle, false, 0, none⟩

/-- A monitor from its record: ARMED or UNBOUND, with its side, count and record reset (R93). -/
def loadMonitor : Option MonBind → Monitor
  | some b => ⟨.armed, some b, .unknown, 0, none⟩
  | none => .unbound

/-- The configuration is loaded: windows, monitors, timebase source and edge, and limit; the
statistics of each window made ENABLED are emptied (R1, R48, R93, R105, R131, R145). -/
def State.loadImage (s : State) (i : BootImage) : State :=
  { s with
    windows := i.windows.map BootWindow.load
    monitors := i.monitors.map loadMonitor
    stats := Vector.ofFn fun w : Fin 16 =>
      if i.windows[w].enabled then Vector.replicate 4 .empty else s.stats[w]
    captures := Vector.replicate 16 none
    tbSource := i.source
    tbEdge := i.edge
    limit := i.limit }

/-- The boot fault, when the store was not fully sound: R181's table. -/
def State.offerBootFault (s : State) : State :=
  match s.boot.genA, s.boot.genB with
  | some _, some _ => s
  | none, none => s.offerFault ⟨.bootNone, .boot, none, none, none⟩
  | _, _ => s.offerFault ⟨.bootOneCopy, .boot, none, none, none⟩

/-! ### BOOT_COMMIT (R183) -/

/-- The image of the part's configuration (R183). -/
def State.snapshot (s : State) : BootImage where
  windows := s.windows.map fun w => ⟨w.defn, w.chans, w.state = .enabled⟩
  monitors := s.monitors.map fun m => if m.state = .unbound then none else m.bind
  source := s.tbSource
  edge := s.tbEdge
  limit := s.limit

/-- The copy that is not active; A when none is (R183). -/
def commitTarget : Option CopyId → CopyId
  | some .a => .b
  | _ => .a

/-- The copy and generation of a boot reply; the generation is zero when the copy is none (R195). -/
def copyPayload (id : Option CopyId) (g : Option Word) : List Byte :=
  copyCode id :: le32 (g.getD 0)

/-- BOOT_COMMIT at its unit (R183, R185). -/
def takeBootCommit (c : Ctx) (s : State) : State :=
  if s.boot.commit.isSome then s.refuse c .busy
  else if s.boot.activeGeneration = some 0xFFFFFFFF then
    s.reply c .failed (copyPayload s.boot.active s.boot.activeGeneration)
  else
    let target := commitTarget s.boot.active
    let g : Word := (s.boot.activeGeneration.getD 0) + 1
    let s' := s.clearMarker target
    { s' with boot := { s.boot.setGeneration target none with
        commit := some ⟨c.trn, target, g, s.snapshot⟩ } }.defer c 0x01

/-- BOOT_COMMIT (R183). -/
def execBootCommit (trn : Byte) (s : State) : Result := .next (s.command bootUnit trn takeBootCommit)

/-! ### The end of a commit (R184) -/

/-- The pending commit ends: it leaves the status record and its reply is made, carrying the target
and the new generation (R184). -/
def State.endCommit (s : State) (p : PendingCommit) (status : Status) : State :=
  { s with boot := { s.boot with commit := none } }.completeDeferred p.trn status
    (copyPayload (some p.target) (some p.generation))

/-- Step 2's comparison fails: the target holds what it read back, with its marker still clear (R184).
Bytes that do not differ from what was to be written are no mismatch (log 1). -/
def State.failCommitBody (s : State) (p : PendingCommit) (readBack : List Byte) : State :=
  let c := BootCopy.ofBytes (le32 0 ++ readBack)
  if c = { writtenCopy p.generation p.image with marker := 0 } then s
  else (s.setCopy p.target c).endCommit p .failed

/-- Step 3: the target holds the new generation, payload and CRC-32 with the marker it read back; it is
valid and active when that is exact, and stays invalid when it is wrong (R184). -/
def State.endCommitMarker (s : State) (p : PendingCommit) (marker : Word) : State :=
  let s' := s.setCopy p.target { writtenCopy p.generation p.image with marker := marker }
  if marker = bootMarker then
    { s' with boot := { s'.boot.setGeneration p.target (some p.generation) with
        active := some p.target } }.endCommit p .ok
  else s'.endCommit p .failed

/-- The writing and checking of the target ends (R184). With no commit pending nothing happens
(log 1). -/
def execCommitEnd (outcome : CommitOutcome) (s : State) : Result :=
  .next <|
    match s.boot.commit, outcome with
    | none, _ => s
    | some p, .bodyMismatch readBack => s.failCommitBody p readBack
    | some p, .markerReadBack marker => s.endCommitMarker p marker

/-! ### BOOT_RELOAD (R186) -/

/-- A window stands as BOOT_RELOAD asks: DISABLED, IDLE and with no deferred command (R186). -/
def Window.outOfService (w : Window) : Bool :=
  w.state = .disabled && w.activity = .idle && w.deferred.isNone

/-- BOOT_RELOAD at its unit (R186). -/
def takeBootReload (lostA lostB : Bool) (c : Ctx) (s : State) : State :=
  if s.boot.commit.isSome then s.refuse c .busy
  else if !s.windows.toList.all Window.outOfService then s.refuse c .wrongState
  else
    let r := (s.loseCopies lostA lostB).readStore
    ((r.loadImage r.activeImage).offerBootFault).reply c .ok
      (copyPayload r.boot.active r.boot.activeGeneration)

/-- BOOT_RELOAD (R186). -/
def execBootReload (trn : Byte) (lostA lostB : Bool) (s : State) : Result :=
  .next (s.command bootUnit trn (takeBootReload lostA lostB))

/-! ### BOOT_QUERY (R187) -/

/-- BOOT_QUERY at its unit (R185, R187). -/
def takeBootQuery (c : Ctx) (s : State) : State :=
  if s.boot.commit.isSome then s.refuse c .busy
  else
    s.reply c .ok
      ([flagBits [s.boot.genA.isSome, s.boot.genB.isSome], copyCode s.boot.active]
        ++ le32 (s.boot.genA.getD 0) ++ le32 (s.boot.genB.getD 0))

/-- BOOT_QUERY (R187). -/
def execBootQuery (trn : Byte) (s : State) : Result := .next (s.command bootUnit trn takeBootQuery)

end Sys2Proof.Machine
end

