-- ==== Sys2Proof/Machine/Windows.lean ====
section
/-! DEFINITION. The window commands DEFINE, SET_CHANNEL, ENABLE, DISABLE and QUERY (section 1.5), and
matching (section 1.3). -/

namespace Sys2Proof.Machine

namespace State

/-- The column of R12's table a window stands in. -/
def winCheck (s : State) (w : Fin 16) (k : WinCommand) : Option Status :=
  stateCheck k s.windows[w].condition

/-- A command that passes its window's state check goes on; another is refused (R12). -/
def checked (s : State) (w : Fin 16) (k : WinCommand) (c : Ctx) (go : State) : State :=
  match s.winCheck w k with
  | some st => s.refuse c st
  | none => go

/-- The ENABLED window whose main range holds an address (R4). -/
def matchWindow (s : State) (a : Word) : Option (Fin 16) :=
  (List.finRange 16).find? fun w => s.windows[w].state = .enabled && s.windows[w].defn.inMain a

/-- The ENABLED STORE_BOTH window whose shadow range holds an address (R7). -/
def guardWindow (s : State) (a : Word) : Option (Fin 16) :=
  (List.finRange 16).find? fun w => s.windows[w].state = .enabled && s.windows[w].defn.inShadow a

/-- Every monitor bound to a window takes side UNKNOWN (R100). -/
def sidesUnknown (s : State) (w : Fin 16) : State :=
  { s with monitors := s.monitors.map fun m =>
      if m.bind.any (·.window = w) then { m with side := .unknown } else m }

/-- The four statistics records of a window are emptied (R105). -/
def emptyStats (s : State) (w : Fin 16) : State :=
  { s with stats := s.stats.set w (Vector.replicate 4 .empty) }

end State

/-! ### DEFINE (R13, R14) -/

/-- The channel records after a change of channel count: kept below both counts, default above the
old (R14). -/
def resizeChans (chans : List ChanRec) (count : Nat) : List ChanRec :=
  chans.take count ++ List.replicate (count - chans.length) .default

/-- The definition a DEFINE carries, when its enumerated fields are defined (R13 check 4, R190). The
shadow base is read only when its presence bit is set (R191). Bits 1 to 7 of the flags byte, which R193
neither names nor marks reserved for DEFINE, are ignored (DESIGN CHOICE, log 21). -/
def definitionOf (base : Word) (pages : Half) (mode format count flags : Byte) (shadow : Word) :
    Option WindowDef := do
  let m ← decodeMode mode
  let f ← decodeFormat format
  let n ← decodeCount count
  pure ⟨base, pages.toNat, m, if flags.getLsbD 0 then some shadow else none, f, n⟩

/-- DEFINE at its unit (R13, R14). -/
def takeDefine (w : Fin 16) (base : Word) (pages : Half) (mode format count flags : Byte)
    (shadow : Word) (c : Ctx) (s : State) : State :=
  s.checked w .define c <|
    match definitionOf base pages mode format count flags shadow with
    | none => s.refuse c .badValue
    | some d =>
      if d.acceptable then
        (s.setWindow w { s.windows[w] with
            defn := d, chans := resizeChans s.windows[w].chans d.count }).reply c .ok []
      else s.refuse c .badValue

/-- DEFINE (R13). -/
def execDefine (w : Fin 16) (trn : Byte) (base : Word) (pages : Half)
    (mode format count flags : Byte) (shadow : Word) (s : State) : Result :=
  .next (s.command (windowUnit w) trn (takeDefine w base pages mode format count flags shadow))

/-! ### SET_CHANNEL (R15) -/

/-- SET_CHANNEL at its unit (R15). -/
def takeSetChannel (w : Fin 16) (channel : Byte) (r : ChanRec) (c : Ctx) (s : State) : State :=
  s.checked w .setChannel c <|
    let x := s.windows[w]
    if channel.toNat < x.defn.count && r.low.toInt ≤ r.high.toInt then
      let s' := s.setWindow w { x with chans := x.chans.set channel.toNat r }
      (if x.state = .enabled && x.defn.mode = .storeBoth then s'.setStale w else s').reply c .ok []
    else s.refuse c .badValue

/-- SET_CHANNEL (R15). -/
def execSetChannel (w : Fin 16) (trn channel : Byte) (gain offset clampLow clampHigh : Half)
    (s : State) : Result :=
  .next (s.command (windowUnit w) trn (takeSetChannel w channel ⟨gain, offset, clampLow, clampHigh⟩))

/-! ### ENABLE (R17, R18) -/

/-- The window conflicts with another that is ENABLED or DRAINING (R9, R17 check 1). -/
def State.conflicts (s : State) (w : Fin 16) : Bool :=
  (List.finRange 16).any fun v =>
    v ≠ w && s.windows[v].inService && s.windows[w].defn.meets s.windows[v].defn

/-- An entry is an unsettled write into a definition's ranges (R17 check 2, first case). -/
def Entry.unsettledIn (e : Entry) (d : WindowDef) : Bool :=
  e.state ≠ .ready && e.window.isNone && e.kind = .write && (d.inMain e.addr || d.inShadow e.addr)

/-- A tag is quarantined for a write into a definition's ranges (R17 check 2, second case). -/
def Tag.unsettledIn (t : Tag) (d : WindowDef) : Bool :=
  match t with
  | .quarantined r => r.kind = .write && (d.inMain r.addr || d.inShadow r.addr)
  | _ => false

/-- Traffic that makes an ENABLE BUSY (R17 check 2). -/
def State.unsettled (s : State) (d : WindowDef) : Bool :=
  s.entries.toList.any (fun e => e.any (·.unsettledIn d)) || s.tags.toList.any (·.unsettledIn d)

/-- ENABLE at its unit (R17, R18). -/
def takeEnable (w : Fin 16) (c : Ctx) (s : State) : State :=
  s.checked w .enable c <|
    if s.conflicts w then s.refuse c .overlap
    else if s.unsettled s.windows[w].defn then s.refuse c .busy
    else
      (((s.setWindow w { s.windows[w] with state := .enabled, stale := false }).emptyStats w
        ).sidesUnknown w).reply c .ok []

/-- ENABLE (R17). -/
def execEnable (w : Fin 16) (trn : Byte) (s : State) : Result :=
  .next (s.command (windowUnit w) trn (takeEnable w))

/-! ### DISABLE (R19) -/

/-- DISABLE at its unit: at once with in-flight count 0, else DRAINING with a deferred reply (R19). -/
def takeDisable (w : Fin 16) (c : Ctx) (s : State) : State :=
  s.checked w .disable c <|
    let x := s.windows[w]
    if x.inflight = 0 then
      ((s.setWindow w { x with state := .disabled }).sidesUnknown w).reply c .ok []
    else
      ((s.setWindow w { x with state := .draining, deferred := some ⟨c.trn, .disable⟩ }
        ).sidesUnknown w).defer c 0x04

/-- DISABLE (R19). -/
def execDisable (w : Fin 16) (trn : Byte) (s : State) : Result :=
  .next (s.command (windowUnit w) trn (takeDisable w))

/-! ### QUERY (R21) -/

/-- A byte address as a 4-byte field. The cursor may stand at 2^32, for which the spec states no
field value: a free value (log 13). -/
def addressField (free : Nat) (a : Nat) : List Byte :=
  if a < 2 ^ 32 then u32 a else le32 (Config.cursorPastTop free)

/-- The 8 bytes of the channel record QUERY reports; absent at or above the channel count (R21,
R195). -/
def queriedChan (x : Window) (channel : Nat) : Option ChanRec :=
  if channel < x.defn.count then x.chans[channel]? else none

/-- The 39 bytes of QUERY's reply (R21, R195). -/
def queryPayload (s : State) (w : Fin 16) (channel : Byte) : List Byte :=
  let x := s.windows[w]
  let rec? := queriedChan x channel.toNat
  let sweep? := if x.activity = .sweeping then s.sweep else none
  let capture? := if x.activity = .zeroing then s.captures[w] else none
  le32 x.defn.base ++ u16 x.defn.pages
    ++ [x.defn.mode.code, x.defn.format.code, u8 x.defn.count]
    ++ le32 (x.defn.shadow.getD 0)
    ++ [x.state.code, x.activity.code,
        flagBits [x.defn.shadow.isSome, x.stale, x.deferred.isSome, rec?.isSome, sweep?.isSome,
          capture?.isSome],
        (x.deferred.map (·.kind.code)).getD 0, u8 x.inflight, channel]
    ++ ((rec?.map fun r => le16 r.gain ++ le16 r.offset ++ le16 r.low ++ le16 r.high).getD (zeros 8))
    ++ ((sweep?.map fun k => addressField s.freeCount k.cursor ++ u32 k.done).getD (zeros 8))
    ++ ((capture?.map fun k => u16 k.count ++ u16 (2 ^ k.n)).getD (zeros 4))

/-- QUERY at its unit (R21). -/
def takeQuery (w : Fin 16) (channel : Byte) (c : Ctx) (s : State) : State :=
  s.checked w .query c <|
    if channel.toNat < 4 then s.reply c .ok (queryPayload s w channel) else s.refuse c .badValue

/-- QUERY (R21). -/
def execQuery (w : Fin 16) (trn channel : Byte) (s : State) : Result :=
  .next (s.command (windowUnit w) trn (takeQuery w channel))

end Sys2Proof.Machine
end

