-- ==== Sys2Proof/Machine/Monitors.lean ====
section
/-! DEFINITION. The consumers of the sample stream: statistics (section 6.5), monitors (sections 6.2,
6.3) and zero capture's accumulation (section 8.3, 8.4); and the monitor and statistics commands. -/

namespace Sys2Proof.Machine

/-! ### Statistics (R106) -/

/-- One sample counted in a record (R106). -/
def Stats.add (t : Stats) (y : Int) (clipped : Bool) : Stats where
  samples := satInc 4294967295 t.samples
  clipped := if clipped then satInc 4294967295 t.clipped else t.clipped
  min := if t.samples = 0 then some y else t.min.map fun m => if y < m then y else m
  max := if t.samples = 0 then some y else t.max.map fun m => if m < y then y else m

/-- A sample updates the record of its recorded window and channel (R106). -/
def State.countSample (s : State) (w : Fin 16) (x : Sample) : State :=
  let c := Fin.ofNat 4 x.channel
  s.setStats w c ((s.stats[w])[c].add x.result.y x.result.clipped)

/-! ### Monitors (R95 to R99) -/

/-- The side after a value, and the crossing it gives: R97's table. -/
def classify (side : Side) (level : Int) (hysteresis : Nat) (y : Int) : Side × Option Edge :=
  match side with
  | .unknown => if level ≤ y then (.above, none) else (.below, none)
  | .below => if level ≤ y then (.above, some .rising) else (.below, none)
  | .above => if y < level - hysteresis then (.below, some .falling) else (.above, none)

/-- A direction watches a crossing (R98). -/
def Direction.watches : Direction → Edge → Bool
  | .both, _ => true
  | .rising, e => e = .rising
  | .falling, e => e = .falling

/-- A monitor handles samples of window w and channel ch: it is ARMED and bound to them (R95). -/
def Monitor.sees (m : Monitor) (w : Fin 16) (ch : Nat) : Bool :=
  m.state = .armed && m.bind.any fun b => b.window = w && b.channel = ch

/-- A monitor after a watched crossing (R98). -/
def Monitor.cross (m : Monitor) (b : MonBind) (side : Side) (r : Crossing) : Monitor :=
  { m with
    side := side
    count := satInc 65535 m.count
    record := some r
    state := if b.mode = .oneShot then .tripped else m.state }

/-- Monitor k handles one sample of its channel (R97 to R99). -/
def State.watchSample (s : State) (w : Fin 16) (stamp : Word) (x : Sample) (k : Fin 16) : State :=
  let m := s.monitors[k]
  match m.bind with
  | none => s
  | some b =>
    if m.sees w x.channel then
      match classify m.side b.level.toInt b.hysteresis x.result.y with
      | (side, none) => s.setMonitor k { m with side := side }
      | (side, some e) =>
        if b.direction.watches e then
          let r : Crossing := ⟨e, x.result.y, x.addr, stamp⟩
          let m' := m.cross b side r
          (s.setMonitor k m').offerNotice (.crossing k b.window b.channel m'.count r)
        else s.setMonitor k { m with side := side }
    else s

/-- A sample reaches the monitors in ascending index, while its window is ENABLED (R95, R96). -/
def State.watch (s : State) (w : Fin 16) (stamp : Word) (x : Sample) : State :=
  if s.windows[w].state = .enabled then
    (List.finRange 16).foldl (fun t k => t.watchSample w stamp x k) s
  else s

/-! ### Zero capture: accumulation and completion (R134 to R136) -/

/-- The mean of a full capture, rounded to nearest, ties toward +∞ (R136 step 1). -/
def captureMean (acc : Int) (n : Nat) : Int := (acc + 2 ^ (n - 1)) / 2 ^ n

/-- A value limited to the signed 16-bit range (R136 step 2). -/
def limit16 (v : Int) : Int := if v < -32768 then -32768 else if 32767 < v then 32767 else v

/-- A capture whose count is full completes (R136). -/
def State.completeCapture (s : State) (w : Fin 16) (k : Capture) : State :=
  let x := s.windows[w]
  let r := x.chans.getD k.channel .default
  let mean := captureMean k.acc k.n
  let new := limit16 (r.offset.toInt - mean)
  let s₁ := s.setWindow w
    { x with chans := x.chans.set k.channel { r with offset := BitVec.ofInt 16 new } }
  let s₂ := if x.defn.mode = .storeBoth then s₁.setStale w else s₁
  (s₂.setCapture w none).endActivity w .ok (le16 r.offset ++ i16 new ++ i32 mean)

/-- A sample reaches the window's capture (R134, R135). -/
def State.accumulate (s : State) (w : Fin 16) (x : Sample) : State :=
  match s.captures[w] with
  | none => s
  | some k =>
    if x.channel = k.channel && k.count < 2 ^ k.n then
      let k' := { k with acc := k.acc + x.result.pre, count := k.count + 1 }
      if k'.count = 2 ^ k.n then s.completeCapture w k' else s.setCapture w (some k')
    else s

/-! ### The hand-over (R77) -/

/-- One sample reaches its three consumers (R77). -/
def State.handSample (s : State) (w : Fin 16) (stamp : Word) (x : Sample) : State :=
  ((s.countSample w x).watch w stamp x).accumulate w x

/-- The samples of a burst are handed on in sample order, stamped with the timebase at the take
(R77). -/
def State.handSamples (s : State) (w : Fin 16) (xs : List Sample) : State :=
  xs.foldl (fun t x => t.handSample w s.tbValue x) s

/-! ### READ_STATS (R107) -/

/-- The 14 bytes of READ_STATS's reply (R195). -/
def statsPayload (slot : Byte) (t : Stats) : List Byte :=
  [slot, flagBits [t.min.isSome && t.max.isSome]] ++ u32 t.samples ++ u32 t.clipped
    ++ i16 (t.min.getD 0) ++ i16 (t.max.getD 0)

/-- READ_STATS at its unit (R107). Bits 1 to 7 of the flags byte, which R193 neither names nor marks
reserved for READ_STATS, are ignored (DESIGN CHOICE, log 21). -/
def takeReadStats (w : Fin 16) (slot flags : Byte) (c : Ctx) (s : State) : State :=
  s.checked w .readStats c <|
    if h : slot.toNat < 4 then
      let k : Fin 4 := ⟨slot.toNat, h⟩
      let s' := if flags.getLsbD 0 then s.setStats w k .empty else s
      s'.reply c .ok (statsPayload slot (s.stats[w])[k])
    else s.refuse c .badValue

/-- READ_STATS (R107). -/
def execReadStats (w : Fin 16) (trn slot flags : Byte) (s : State) : Result :=
  .next (s.command (windowUnit w) trn (takeReadStats w slot flags))

/-! ### The MONITOR unit (section 6.4) -/

/-- The unit code of the monitor bank (section 10.2). -/
def monitorUnit : Byte := 0x20

/-- A monitor command with its index checked (section 6.4): 16 or more is BAD_VALUE. -/
def State.withMonitor (s : State) (monitor : Byte) (c : Ctx) (go : Fin 16 → State) : State :=
  match decodeIndex monitor with
  | none => s.refuse c .badValue
  | some k => go k

/-- The binding a MON_SET carries, when every value is in range (R101). -/
def bindingOf (s : State) (window channel : Byte) (level hysteresis : Half) (direction mode : Byte) :
    Option MonBind := do
  let w ← decodeIndex window
  let d ← decodeDirection direction
  let m ← decodeMonMode mode
  if channel.toNat < s.windows[w].defn.count && hysteresis.toNat ≤ 4095 then
    pure ⟨w, channel.toNat, level, hysteresis.toNat, d, m⟩
  else none

/-- MON_SET at its unit (R101). -/
def takeMonSet (monitor window channel : Byte) (level hysteresis : Half) (direction mode : Byte)
    (c : Ctx) (s : State) : State :=
  s.withMonitor monitor c fun k =>
    match bindingOf s window channel level hysteresis direction mode with
    | none => s.refuse c .badValue
    | some b => (s.setMonitor k ⟨.armed, some b, .unknown, 0, none⟩).reply c .ok []

/-- MON_SET (R101). -/
def execMonSet (trn monitor window channel : Byte) (level hysteresis : Half) (direction mode : Byte)
    (s : State) : Result :=
  .next (s.command monitorUnit trn (takeMonSet monitor window channel level hysteresis direction mode))

/-- MON_ARM at its unit (R102). -/
def takeMonArm (monitor : Byte) (c : Ctx) (s : State) : State :=
  s.withMonitor monitor c fun k =>
    if s.monitors[k].state = .unbound then s.refuse c .wrongState
    else
      (s.setMonitor k { s.monitors[k] with state := .armed, side := .unknown }).reply c .ok []

/-- MON_ARM (R102). -/
def execMonArm (trn monitor : Byte) (s : State) : Result :=
  .next (s.command monitorUnit trn (takeMonArm monitor))

/-- MON_RELEASE at its unit (R103). -/
def takeMonRelease (monitor : Byte) (c : Ctx) (s : State) : State :=
  s.withMonitor monitor c fun k => (s.setMonitor k .unbound).reply c .ok []

/-- MON_RELEASE (R103). -/
def execMonRelease (trn monitor : Byte) (s : State) : Result :=
  .next (s.command monitorUnit trn (takeMonRelease monitor))

/-- The 26 bytes of MON_QUERY's reply (R104, R195). -/
def monitorPayload (k : Fin 16) (m : Monitor) : List Byte :=
  [u8 k.val, m.state.code, flagBits [m.bind.isSome, m.record.isSome]]
    ++ ((m.bind.map fun b =>
          [u8 b.window.val, u8 b.channel] ++ le16 b.level ++ u16 b.hysteresis
            ++ [b.direction.code, b.mode.code]).getD (zeros 8))
    ++ [m.side.code] ++ u16 m.count ++ ((m.record.map crossingBytes).getD (zeros 12))

/-- MON_QUERY at its unit (R104). -/
def takeMonQuery (monitor : Byte) (c : Ctx) (s : State) : State :=
  s.withMonitor monitor c fun k => s.reply c .ok (monitorPayload k s.monitors[k])

/-- MON_QUERY (R104). -/
def execMonQuery (trn monitor : Byte) (s : State) : Result :=
  .next (s.command monitorUnit trn (takeMonQuery monitor))

end Sys2Proof.Machine
end

