-- ==== Sys2Proof/Machine/Sweeps.lean ====
section
/-! DEFINITION. The sweep unit: SWEEP (R113, R114), what an answered sweep sub-request does (R117 to
R123, R126), and ABORT (R124 to R126, R140). -/

namespace Sys2Proof.Machine

namespace State

/-! ### How a sweep stops -/

/-- The sweep stops: the deferred SWEEP replies, the window is IDLE, the context is empty and the
fairness count is 0 (R121, R123, R125, R126). -/
def endSweep (s : State) (c : Sweep) (status : Status) (payload : List Byte) : State :=
  { s.endActivity c.window status payload with sweep := none, fairness := 0 }

/-- The sweep completes: a whole-window sweep that was not restaled clears the stale flag (R121). -/
def completeSweep (s : State) (c : Sweep) : State :=
  let x := s.windows[c.window]
  let s' := if c.whole && !c.restaled then s.setWindow c.window { x with stale := false } else s
  s'.endSweep c .ok (u32 c.done)

/-- The sweep fails: cursor, blocks done, the sub-request and its status (R123, R195). -/
def failSweep (s : State) (c : Sweep) (role : ReqKind) (st : HostStatus) : State :=
  s.endSweep c .failed
    (addressField s.freeCount c.cursor ++ u32 c.done
      ++ [if role = .read then 0 else 1, if st = .memerr then 0 else 1])

/-- The sweep is aborted: cursor and blocks done (R125, R126, R195). A cursor at 2^32 has no stated
field value: a free value is used up (log 13). -/
def abortSweep (s : State) (c : Sweep) : State :=
  { s.endSweep c .aborted (addressField s.freeCount c.cursor ++ u32 c.done) with
    freeCount := if c.cursor < 2 ^ 32 then s.freeCount else s.freeCount + 1 }

/-! ### Answers (R117, R119, R120, R126) -/

/-- The block's read is answered (R117, R123). -/
def answerSweepRead (s : State) (c : Sweep) (st : HostStatus) (ws : List Word) : State :=
  if st = .okay then
    { s with sweep := some { c with
        block := some (fitWords 16 ws), tag := none, phase := .writePending } }
  else s.failSweep c .read st

/-- The block's write is answered (R119, R121, R123, R126). -/
def answerSweepWrite (s : State) (c : Sweep) (st : HostStatus) : State :=
  let d := if st = .okay then { c with done := c.done + 1, cursor := c.cursor + 64, tag := none } else c
  if c.stopping then s.abortSweep d
  else if st ≠ .okay then s.failSweep c .write st
  else if d.cursor < d.stop then { s with sweep := some { d with phase := .readPending } }
  else s.completeSweep d

/-- An answer or expiry of a SWEEP tag reaches the sweep unit, which acts on it only when the tag is
the context's current tag and the phase is READ_OUT or WRITE_OUT (R120). -/
def answerSweep (s : State) (t : Fin 64) (st : HostStatus) (ws : List Word) : State :=
  match s.sweep with
  | none => s
  | some c =>
    if c.tag = some t then
      match c.phase with
      | .readOut => s.answerSweepRead c st ws
      | .writeOut => s.answerSweepWrite c st
      | _ => s
    else s

/-- A window other than w is SWEEPING (R113 check 3, R115). -/
def otherSweeping (s : State) (w : Fin 16) : Bool :=
  (List.finRange 16).any fun v => v ≠ w && s.windows[v].activity = .sweeping

end State

/-! ### SWEEP -/

/-- The context a SWEEP fills (R114). -/
def sweepContext (w : Fin 16) (d : WindowDef) (startPage pageCount : Nat) : Sweep :=
  let stop :=
    if pageCount = 0 then d.base.toNat + d.pages * 4096
    else d.base.toNat + (startPage + pageCount) * 4096
  let start := d.base.toNat + startPage * 4096
  ⟨w, start, stop, startPage = 0 && stop = d.base.toNat + d.pages * 4096, start, 0, .readPending,
    none, none, false, false⟩

/-- SWEEP at its unit: R113's checks in order, then R114. -/
def takeSweep (w : Fin 16) (startPage pageCount : Half) (c : Ctx) (s : State) : State :=
  s.checked w .sweep c <|
    let x := s.windows[w]
    if x.defn.mode ≠ .storeBoth then s.refuse c .wrongState
    else if s.otherSweeping w then s.refuse c .busy
    else if x.defn.pages ≤ startPage.toNat
        || (pageCount ≠ 0 && x.defn.pages < startPage.toNat + pageCount.toNat) then
      s.refuse c .badValue
    else
      { (s.setWindow w { x with activity := .sweeping, deferred := some ⟨c.trn, .sweep⟩ }
          ).defer c 0x06 with
        sweep := some (sweepContext w x.defn startPage.toNat pageCount.toNat) }

/-- SWEEP (R113). -/
def execSweep (w : Fin 16) (trn : Byte) (startPage pageCount : Half) (s : State) : Result :=
  .next (s.command (windowUnit w) trn (takeSweep w startPage pageCount))

/-! ### ABORT -/

/-- An ABORT stops the sweep at once while nothing of the block's write has been produced (R125), and
else marks it stopping (R126). -/
def State.stopSweep (s : State) (w : Fin 16) : State :=
  match s.sweep with
  | none => s
  | some k =>
    if k.window = w then
      if k.phase = .writeIssuing || k.phase = .writeOut then
        { s with sweep := some { k with stopping := true } }
      else s.abortSweep k
    else s

/-- An ABORT stops the capture at once (R140). -/
def State.stopCapture (s : State) (w : Fin 16) : State :=
  match s.captures[w] with
  | none => s
  | some k => (s.setCapture w none).endActivity w .aborted (u16 k.count)

/-- ABORT at its unit: its own OK joins the reply queue first (R124, R140). -/
def takeAbort (w : Fin 16) (c : Ctx) (s : State) : State :=
  s.checked w .abort c <|
    let r := s.reply c .ok []
    if s.windows[w].activity = .sweeping then r.stopSweep w else r.stopCapture w

/-- ABORT (R124). -/
def execAbort (w : Fin 16) (trn : Byte) (s : State) : Result :=
  .next (s.command (windowUnit w) trn (takeAbort w))

end Sys2Proof.Machine
end

