-- ==== Sys2Proof/Machine/Captures.lean ====
section
/-! DEFINITION. Zero capture: ZERO_CAPTURE (R132, R133) and its deadline (R138). Accumulation and
completion stand in Monitors.lean, ABORT in Sweeps.lean. -/

namespace Sys2Proof.Machine

/-- ZERO_CAPTURE at its unit: R132's checks in order, then R133. -/
def takeZeroCapture (w : Fin 16) (channel n : Byte) (limit : Half) (c : Ctx) (s : State) : State :=
  s.checked w .zeroCapture c <|
    let x := s.windows[w]
    if x.defn.count ≤ channel.toNat || n.toNat < 4 || 12 < n.toNat || limit = 0 then
      s.refuse c .badValue
    else
      ((s.setWindow w { x with activity := .zeroing, deferred := some ⟨c.trn, .zero⟩ }).setCapture w
        (some ⟨channel.toNat, n.toNat, limit.toNat, 0, 0, s.msBase + limit.toNat⟩)).defer c 0x07

/-- ZERO_CAPTURE (R132). -/
def execZeroCapture (w : Fin 16) (trn channel n : Byte) (limit : Half) (s : State) : Result :=
  .next (s.command (windowUnit w) trn (takeZeroCapture w channel n limit))

/-- A capture's deadline passes while its count is not full, when the millisecond base has reached it
(R138, R143). -/
def State.passCapture (s : State) (w : Fin 16) : State :=
  match s.captures[w] with
  | none => s
  | some k =>
    if k.deadline ≤ s.msBase && k.count < 2 ^ k.n then
      (s.setCapture w none).endActivity w .timeout (u16 k.count)
    else s

/-- CAPTURE_DEADLINE (R138). With no capture, or before the deadline, nothing happens (log 1). -/
def execCaptureDeadline (w : Fin 16) (s : State) : Result := .next (s.passCapture w)

end Sys2Proof.Machine
end

