-- ==== Sys2Proof/Machine/CoreUnit.lean ====
section
/-! DEFINITION. The CORE unit's commands (section 10.11). -/

namespace Sys2Proof.Machine

/-- The unit code of CORE (section 10.2). -/
def coreUnit : Byte := 0x00

/-- GET_IDENTITY at its unit (R174, R195). -/
def takeGetIdentity (c : Ctx) (s : State) : State :=
  s.reply c .ok (le16 Config.partCode ++ [Config.revision, linkRateCode s.linkRate])

/-- GET_IDENTITY (R174). -/
def execGetIdentity (trn : Byte) (s : State) : Result := .next (s.command coreUnit trn takeGetIdentity)

/-- A tag is in use. -/
def Tag.isInUse : Tag → Bool
  | .inUse _ => true
  | _ => false

/-- A tag is quarantined. -/
def Tag.isQuarantined : Tag → Bool
  | .quarantined _ => true
  | _ => false

/-- The window that is SWEEPING, if one is (R175). -/
def State.sweepingWindow (s : State) : Option (Fin 16) :=
  (List.finRange 16).find? fun w => s.windows[w].activity = .sweeping

/-- The 13 bytes of GET_STATUS's reply (R61, R175, R195). -/
def statusPayload (s : State) : List Byte :=
  [u8 (s.entries.toList.countP Option.isSome),
    u8 (s.tags.toList.countP (· = .free)),
    u8 (s.tags.toList.countP Tag.isInUse),
    u8 (s.tags.toList.countP Tag.isQuarantined)]
  ++ le16 s.limit
  ++ [u8 s.faults.length, flagBits [s.overflow, s.sweepingWindow.isSome],
    u8 (s.slots.toList.countP (· ≠ .free)), u8 s.deferred.length, u8 s.notices.length, u8 s.lost,
    u8 ((s.sweepingWindow.map Fin.val).getD 0)]

/-- GET_STATUS at its unit; its own slot is already reserved and counts (R175). -/
def takeGetStatus (c : Ctx) (s : State) : State := s.reply c .ok (statusPayload s)

/-- GET_STATUS (R175). -/
def execGetStatus (trn : Byte) (s : State) : Result := .next (s.command coreUnit trn takeGetStatus)

/-- SET_LIMITS at its unit (R176). -/
def takeSetLimits (limit : Half) (c : Ctx) (s : State) : State :=
  { s with limit := limit }.reply c .ok (le16 s.limit)

/-- SET_LIMITS (R176). -/
def execSetLimits (trn : Byte) (limit : Half) (s : State) : Result :=
  .next (s.command coreUnit trn (takeSetLimits limit))

/-- The 10 bytes of GET_LINK_COUNTERS's reply (R195). -/
def countersPayload (k : LinkCounters) : List Byte :=
  u16 k.framing ++ u16 k.crc ++ u16 k.badTrn ++ u16 k.overrun ++ u16 k.breaks

/-- GET_LINK_COUNTERS at its unit: copied first, then emptied when the clear flag is set (R177). -/
def takeGetLinkCounters (flags : Byte) (c : Ctx) (s : State) : State :=
  { s with counters := if flags.getLsbD 0 then ⟨0, 0, 0, 0, 0⟩ else s.counters }.reply c .ok
    (countersPayload s.counters)

/-- GET_LINK_COUNTERS (R177). -/
def execGetLinkCounters (trn flags : Byte) (s : State) : Result :=
  .next (s.command coreUnit trn (takeGetLinkCounters flags))

end Sys2Proof.Machine
end

