-- ==== Sys2Proof/Machine/TimeFaults.lean ====
section
/-! DEFINITION. The timebase (R144 to R147), and the fault commands (R152 to
R154). -/

namespace Sys2Proof.Machine

/-- The unit code of TIME (section 10.2). -/
def timeUnit : Byte := 0x30

/-- A counting event of a source: the value increases, wrapping, when the timebase counts under that
source (R144, R145). -/
def State.countEvent (s : State) (source : TbSource) : State :=
  if s.loadDone && s.tbSource = source then { s with tbValue := s.tbValue + 1 } else s

/-- A STROBE transition; one in the other direction is ignored (R144). -/
def execStrobeEdge (edge : Edge) (s : State) : Result :=
  .next (if s.tbEdge = edge then s.countEvent .strobe else s)

/-! ### TB_SET and TB_READ -/

/-- TB_SET at its unit (R146). -/
def takeTbSet (source edge : Byte) (preset : Word) (c : Ctx) (s : State) : State :=
  match decodeSource source, decodeEdge edge with
  | some src, some e => { s with tbValue := preset, tbSource := src, tbEdge := e }.reply c .ok []
  | _, _ => s.refuse c .badValue

/-- TB_SET (R146). -/
def execTbSet (trn source edge : Byte) (preset : Word) (s : State) : Result :=
  .next (s.command timeUnit trn (takeTbSet source edge preset))

/-- TB_READ at its unit (R147). -/
def takeTbRead (c : Ctx) (s : State) : State :=
  s.reply c .ok (le32 s.tbValue ++ [s.tbSource.code, edgeCode s.tbEdge])

/-- TB_READ (R147). -/
def execTbRead (trn : Byte) (s : State) : Result := .next (s.command timeUnit trn takeTbRead)

/-! ### The fault commands -/

/-- The 16 bytes of FAULT_PEEK's and FAULT_POP's reply; the empty indication is record-present clear
with a zero record (R195). -/
def faultPayload (count : Nat) (overflow : Bool) (record : Option FaultRecord) : List Byte :=
  [u8 count, flagBits [overflow, record.isSome]] ++ ((record.map faultBytes).getD (zeros 14))

/-- FAULT_PEEK at its unit (R152). -/
def takeFaultPeek (c : Ctx) (s : State) : State :=
  s.reply c .ok (faultPayload s.faults.length s.overflow s.faults.head?)

/-- FAULT_PEEK (R152). -/
def execFaultPeek (trn : Byte) (s : State) : Result := .next (s.command timeUnit trn takeFaultPeek)

/-- FAULT_POP at its unit: the oldest record leaves, and ALERT is released with the last (R153,
R155). -/
def takeFaultPop (c : Ctx) (s : State) : State :=
  match s.faults with
  | [] => s.reply c .ok (faultPayload 0 s.overflow none)
  | r :: rest =>
    { s with faults := rest, alert := if rest.isEmpty then false else s.alert }.reply c .ok
      (faultPayload rest.length s.overflow (some r))

/-- FAULT_POP (R153). -/
def execFaultPop (trn : Byte) (s : State) : Result := .next (s.command timeUnit trn takeFaultPop)

/-- FAULT_CLEAR at its unit (R154). -/
def takeFaultClear (c : Ctx) (s : State) : State :=
  { s with
    faults := [], overflow := false
    alert := if s.faults.isEmpty then s.alert else false }.reply c .ok
      [u8 s.faults.length, flagBits [s.overflow]]

/-- FAULT_CLEAR (R154). -/
def execFaultClear (trn : Byte) (s : State) : Result := .next (s.command timeUnit trn takeFaultClear)

end Sys2Proof.Machine
end

