-- ==== Sys2Proof/Machine/Packets.lean ====
section
/-! DEFINITION. Command packets: the command table (R192), what a good packet's payload hands to its
unit (R193), and the packet that a link command row of the table stands for. -/

namespace Sys2Proof.Machine

/-- A packet's fields past sync and CRC (section 10.2). -/
structure Packet where
  unit : Byte
  code : Byte
  trn : Byte
  payload : List Byte
  deriving DecidableEq, Repr

/-- The units of section 10.2. -/
inductive UnitId where
  | core
  | window (w : Fin 16)
  | monitor
  | time
  | boot
  deriving DecidableEq, Repr

/-- The unit a unit code addresses (section 10.2). -/
def unitOf (b : Byte) : Option UnitId :=
  if b = 0x00 then some .core
  else if h : 0x10 ≤ b.toNat ∧ b.toNat < 0x20 then some (.window ⟨b.toNat - 0x10, by omega⟩)
  else if b = 0x20 then some .monitor
  else if b = 0x30 then some .time
  else if b = 0x40 then some .boot
  else none

/-- The payload length of each command of a unit, if the unit takes the code (R192). -/
def commandLength (u : UnitId) (code : Byte) : Option Nat :=
  match u, code.toNat with
  | .core, 0x01 => some 0
  | .core, 0x02 => some 0
  | .core, 0x03 => some 2
  | .core, 0x04 => some 1
  | .window _, 0x01 => some 14
  | .window _, 0x02 => some 9
  | .window _, 0x03 => some 0
  | .window _, 0x04 => some 0
  | .window _, 0x05 => some 1
  | .window _, 0x06 => some 4
  | .window _, 0x07 => some 4
  | .window _, 0x08 => some 0
  | .window _, 0x09 => some 2
  | .monitor, 0x01 => some 9
  | .monitor, 0x02 => some 1
  | .monitor, 0x03 => some 1
  | .monitor, 0x04 => some 1
  | .time, 0x01 => some 6
  | .time, 0x02 => some 0
  | .time, 0x03 => some 0
  | .time, 0x04 => some 0
  | .time, 0x05 => some 0
  | .boot, 0x01 => some 0
  | .boot, 0x02 => some 0
  | .boot, 0x03 => some 0
  | _, _ => none

/-- Checks 2 to 4 of R163: NO_UNIT, NO_COMMAND, BAD_LENGTH, or none for a defined command. -/
def undefinedStatus (p : Packet) : Option Status :=
  match unitOf p.unit with
  | none => some .noUnit
  | some u =>
    match commandLength u p.code with
    | none => some .noCommand
    | some n => if p.payload.length = n then none else some .badLength

/-- A defined packet's payload is read by R193 and handed to its unit (R163). -/
def takeDefined (u : UnitId) (p : Packet) : Ctx → State → State :=
  let q := p.payload
  match u, p.code.toNat with
  | .core, 0x01 => takeGetIdentity
  | .core, 0x02 => takeGetStatus
  | .core, 0x03 => takeSetLimits (halfAt q 0)
  | .core, 0x04 => takeGetLinkCounters (byteAt q 0)
  | .window w, 0x01 =>
    takeDefine w (wordAt q 0) (halfAt q 4) (byteAt q 6) (byteAt q 7) (byteAt q 8) (byteAt q 9)
      (wordAt q 10)
  | .window w, 0x02 =>
    takeSetChannel w (byteAt q 0) ⟨halfAt q 1, halfAt q 3, halfAt q 5, halfAt q 7⟩
  | .window w, 0x03 => takeEnable w
  | .window w, 0x04 => takeDisable w
  | .window w, 0x05 => takeQuery w (byteAt q 0)
  | .window w, 0x06 => takeSweep w (halfAt q 0) (halfAt q 2)
  | .window w, 0x07 => takeZeroCapture w (byteAt q 0) (byteAt q 1) (halfAt q 2)
  | .window w, 0x08 => takeAbort w
  | .window w, 0x09 => takeReadStats w (byteAt q 0) (byteAt q 1)
  | .monitor, 0x01 =>
    takeMonSet (byteAt q 0) (byteAt q 1) (byteAt q 2) (halfAt q 3) (halfAt q 5) (byteAt q 7)
      (byteAt q 8)
  | .monitor, 0x02 => takeMonArm (byteAt q 0)
  | .monitor, 0x03 => takeMonRelease (byteAt q 0)
  | .monitor, 0x04 => takeMonQuery (byteAt q 0)
  | .time, 0x01 => takeTbSet (byteAt q 0) (byteAt q 1) (wordAt q 2)
  | .time, 0x02 => takeTbRead
  | .time, 0x03 => takeFaultPeek
  | .time, 0x04 => takeFaultPop
  | .time, 0x05 => takeFaultClear
  | .boot, 0x01 => takeBootCommit
  | .boot, 0x02 => takeBootReload false false
  | .boot, 0x03 => takeBootQuery
  | _, _ => fun c s => s.refuse c .noCommand

/-- A packet that has its slot and is no duplicate: refused by checks 2 to 4 of R163, or handed to its
unit. -/
def takePacket (p : Packet) (c : Ctx) (s : State) : State :=
  match undefinedStatus p, unitOf p.unit with
  | none, some u => takeDefined u p c s
  | some st, _ => s.refuse c st
  | none, none => s.refuse c .noUnit

/-- A good packet is handed to the dispatcher (R160, R162). -/
def State.handPacket (s : State) (p : Packet) : State := s.dispatch p.unit p.trn (takePacket p)

/-- UNDEFINED_COMMAND (R163): the packet is handed to the dispatcher. -/
def execUndefinedCommand (unit code trn : Byte) (payload : List Byte) (s : State) : Result :=
  .next (s.command unit trn (takePacket ⟨unit, code, trn, payload⟩))

/-- The packet a link command row stands for: its unit, code, TRN and payload (R192, R193); none for
a row that is not a link command, and for a BOOT_RELOAD that finds a copy newly lost, which no
packet can say (log 10). -/
def commandPacket : Instr → Option Packet
  | .hardwareReset _ => none
  | .resetEnd _ => none
  | .load _ _ => none
  | .opening => none
  | .acceptance _ => none
  | .responseTaken => none
  | .hostTurn => none
  | .sweepReadTurn => none
  | .sweepWriteTurn => none
  | .subRequestIssue => none
  | .memoryResponse _ _ _ => none
  | .expiry _ => none
  | .captureDeadline _ => none
  | .strobeEdge _ => none
  | .timebaseIncrement _ _ => none
  | .linkByteReceived _ => none
  | .interByteGap => none
  | .linkBreak => none
  | .breakEnd => none
  | .transmitterChoice => none
  | .transmissionEnd => none
  | .undefinedCommand unit code trn payload => some ⟨unit, code, trn, payload⟩
  | .getIdentity trn => some ⟨coreUnit, 0x01, trn, []⟩
  | .getStatus trn => some ⟨coreUnit, 0x02, trn, []⟩
  | .setLimits trn limit => some ⟨coreUnit, 0x03, trn, le16 limit⟩
  | .getLinkCounters trn flags => some ⟨coreUnit, 0x04, trn, [flags]⟩
  | .define w trn base pages mode format count flags shadow =>
    some ⟨windowUnit w, 0x01, trn,
      le32 base ++ le16 pages ++ [mode, format, count, flags] ++ le32 shadow⟩
  | .setChannel w trn channel gain offset low high =>
    some ⟨windowUnit w, 0x02, trn, [channel] ++ le16 gain ++ le16 offset ++ le16 low ++ le16 high⟩
  | .enable w trn => some ⟨windowUnit w, 0x03, trn, []⟩
  | .disable w trn => some ⟨windowUnit w, 0x04, trn, []⟩
  | .query w trn channel => some ⟨windowUnit w, 0x05, trn, [channel]⟩
  | .sweep w trn start count => some ⟨windowUnit w, 0x06, trn, le16 start ++ le16 count⟩
  | .zeroCapture w trn channel n limit => some ⟨windowUnit w, 0x07, trn, [channel, n] ++ le16 limit⟩
  | .abort w trn => some ⟨windowUnit w, 0x08, trn, []⟩
  | .readStats w trn slot flags => some ⟨windowUnit w, 0x09, trn, [slot, flags]⟩
  | .monSet trn monitor window channel level hysteresis direction mode =>
    some ⟨monitorUnit, 0x01, trn,
      [monitor, window, channel] ++ le16 level ++ le16 hysteresis ++ [direction, mode]⟩
  | .monArm trn monitor => some ⟨monitorUnit, 0x02, trn, [monitor]⟩
  | .monRelease trn monitor => some ⟨monitorUnit, 0x03, trn, [monitor]⟩
  | .monQuery trn monitor => some ⟨monitorUnit, 0x04, trn, [monitor]⟩
  | .tbSet trn source edge preset => some ⟨timeUnit, 0x01, trn, [source, edge] ++ le32 preset⟩
  | .tbRead trn => some ⟨timeUnit, 0x02, trn, []⟩
  | .faultPeek trn => some ⟨timeUnit, 0x03, trn, []⟩
  | .faultPop trn => some ⟨timeUnit, 0x04, trn, []⟩
  | .faultClear trn => some ⟨timeUnit, 0x05, trn, []⟩
  | .bootCommit trn => some ⟨bootUnit, 0x01, trn, []⟩
  | .commitEnd _ => none
  | .bootReload trn lostA lostB => if lostA || lostB then none else some ⟨bootUnit, 0x02, trn, []⟩
  | .bootQuery trn => some ⟨bootUnit, 0x03, trn, []⟩

end Sys2Proof.Machine
end

