-- ==== Sys2Proof/Machine/Link.lean ====
section
/-! DEFINITION. The line side of the link: the receiver (R158 to R160), the gap (R159), BREAK (R171),
and the transmitter (R169). -/

namespace Sys2Proof.Machine

/-! ### The receiver -/

/-- The sync value (R189). -/
def syncByte : Byte := 0xA5

/-- One more in the framing counter (R161). -/
def LinkCounters.bumpFraming (k : LinkCounters) : LinkCounters :=
  { k with framing := satInc 65535 k.framing }

/-- The packet in assembly is discarded and the receiver returns to HUNT. -/
def State.dropPacket (s : State) : State := { s with rx := { s.rx with state := .hunt, bytes := [] } }

/-- A byte is kept and the receiver stands in a state (R158). -/
def State.keepByte (s : State) (b : Byte) (st : RxState) : State :=
  { s with rx := ⟨st, s.rx.bytes ++ [b], s.usBase⟩ }

/-- The length field of the packet in assembly. -/
def Receiver.length (r : Receiver) : Nat := (byteAt r.bytes 0).toNat

/-- The packet in assembly, without its check bytes. -/
def Receiver.packet (r : Receiver) : Packet :=
  ⟨byteAt r.bytes 1, byteAt r.bytes 2, byteAt r.bytes 3, (r.bytes.drop 4).take r.length⟩

/-- The CRC over length, unit, command, TRN and payload of the packet in assembly (R160, R196). -/
def Receiver.computedCrc (r : Receiver) : Half := crc16 (r.bytes.take (4 + r.length))

/-- The second CRC byte: the packet is good and handed to the dispatcher at this moment, or is
discarded with a CRC count (R160, R196). -/
def State.checkPacket (s : State) (b : Byte) : State :=
  let first := byteAt s.rx.bytes (4 + s.rx.length)
  let done := s.dropPacket
  if s.rx.computedCrc = b ++ first then done.handPacket s.rx.packet
  else { done with counters := { s.counters with crc := satInc 65535 s.counters.crc } }

/-- The 2 ms pass inside a packet: it is discarded with a framing count, and the receiver returns to
HUNT (R159). -/
def State.endGap (s : State) : State := { s.dropPacket with counters := s.counters.bumpFraming }

/-- The 2 ms pass, when the microsecond base has reached them inside a packet (R143, R159). -/
def State.passGap (s : State) : State :=
  if s.rx.state ≠ .hunt && s.rx.lastAt + 2000 ≤ s.usBase then s.endGap else s

/-- One byte in the receiver's state: R158's table. -/
def State.takeByte (s : State) (b : Byte) : State :=
  match s.rx.state with
  | .hunt => if b = syncByte then { s with rx := ⟨.header, [], s.usBase⟩ } else s
  | .header =>
    if s.rx.bytes.length = 0 then
      if 48 < b.toNat then { s.dropPacket with counters := s.counters.bumpFraming }
      else s.keepByte b .header
    else if s.rx.bytes.length < 3 then s.keepByte b .header
    else s.keepByte b (if s.rx.length = 0 then .check else .payload)
  | .payload =>
    s.keepByte b (if s.rx.bytes.length + 1 < 4 + s.rx.length then .payload else .check)
  | .check =>
    if s.rx.bytes.length < 5 + s.rx.length then s.keepByte b .check else s.checkPacket b

/-- A received byte, its stop bit high (R157). One that comes when the 2 ms have passed finds its packet
discarded, and is handled in HUNT (R158, R159). -/
def State.receive (s : State) (b : Byte) : State := s.seeHigh.passGap.takeByte b

/-- A character received on LINK_RX (R158). A closed link, or a BREAK, receives none (R158, R171). -/
def execLinkByteReceived (b : Byte) (s : State) : Result :=
  .next (if s.linkReceives then s.receive b else s)

/-- INTER_BYTE_GAP: 2 ms pass inside a packet without a byte (R159). In HUNT, or before the 2 ms,
nothing happens (log 1). -/
def execInterByteGap (s : State) : Result := .next s.passGap

/-! ### BREAK (R171) -/

/-- A BREAK frees a slot that is QUEUED or SENDING; a HELD slot stays held (R166, R171). -/
def Slot.afterBreak : Slot → Slot
  | .free => .free
  | .held trn unit => .held trn unit
  | .queued _ => .free
  | .sending _ => .free

/-- A BREAK cuts a packet being transmitted off at the end of the character in progress (R171). -/
def Transmitter.cut : Transmitter → Transmitter
  | .idle => .idle
  | .sending _ p => .cutOff p
  | .cutOff p => .cutOff p

/-- A BREAK is detected: the line has been low for 1 ms, so since 1000 steps of the microsecond base ago
(R171). On a closed link, while the line is still low after a BREAK, or within 1 ms of the opening or of
an earlier high line, there is none (R171, R173; log 1). -/
def State.detectBreak (s : State) : State :=
  if s.linkReceives && s.lineLowFor1ms then
    { s.dropPacket with
      slots := s.slots.map Slot.afterBreak
      replyQueue := []
      tx := s.tx.cut
      notices := []
      lost := 0
      runCount := 0
      counters := { s.counters with breaks := satInc 65535 s.counters.breaks }
      breakLow := true }
  else s

/-- BREAK: taken after what has reached the part together with it, and before what comes (R172). -/
def execLinkBreak (s : State) : Result := .next s.detectBreak

/-- LINK_RX returns high after a BREAK (R171); without one nothing happens (log 1). -/
def execBreakEnd (s : State) : Result :=
  .next (if s.breakLow then { s.timeLine with breakLow := false } else s)

/-! ### The transmitter (R169) -/

/-- The head reply starts: its slot becomes SENDING (R166, R169). -/
def State.sendReply (s : State) (k : Fin 16) (rest : List (Fin 16)) (run : Nat) : State :=
  match s.slots[k] with
  | .queued r =>
    { s.setSlot k (.sending r) with
      replyQueue := rest, runCount := run, tx := .sending (some k) (replyPacket r) }
  | _ => { s with replyQueue := rest }

/-- The head notice starts (R169). -/
def State.sendNotice (s : State) (n : Notice) (rest : List Notice) : State :=
  { s with notices := rest, runCount := 0, tx := .sending none (noticePacket n) }

/-- No packet is being sent. A character left of a packet that was cut off has ended by the next choice
(log 19). -/
def Transmitter.idles : Transmitter → Bool
  | .idle => true
  | .sending _ _ => false
  | .cutOff _ => true

/-- The transmitter's choice: R169's table. -/
def State.transmit (s : State) : State :=
  if s.tx.idles && s.linkReceives then
    match s.replyQueue, s.notices with
    | [], [] => s
    | k :: ks, [] => s.sendReply k ks s.runCount
    | [], n :: ns => s.sendNotice n ns
    | k :: ks, n :: ns =>
      if s.runCount < 4 then s.sendReply k ks (s.runCount + 1) else s.sendNotice n ns
  else s

/-- The idle transmitter chooses (R169); otherwise nothing happens (log 1). -/
def execTransmitterChoice (s : State) : Result := .next s.transmit

/-- The last byte of the packet has been sent (R169): a reply's slot is FREE and the transmitter is
idle. Of a packet cut off it is the character in progress that ends, its slot being FREE already
(R171). -/
def execTransmissionEnd (s : State) : Result :=
  .next <|
    match s.tx with
    | .idle => s
    | .cutOff _ => { s with tx := .idle }
    | .sending none _ => { s with tx := .idle }
    | .sending (some k) _ => { s.setSlot k .free with tx := .idle }

end Sys2Proof.Machine
end

