-- ==== Sys2Proof/Machine/Tracking.lean ====
section
/-! DEFINITION. Transaction tracking (chapter 3) and the read return path (chapter 5): acceptance,
delivery, the issue of a sub-request, memory responses and expiry. -/

namespace Sys2Proof.Machine

/-! ### Requests -/

/-- A request's kind. -/
def opKind : HostOp → ReqKind
  | .read _ => .read
  | .write _ => .write

/-- A request's length in words. -/
def opLen : HostOp → Nat
  | .read n => n
  | .write ws => ws.length

/-- A request's write data. -/
def opWords : HostOp → List WriteWord
  | .read _ => []
  | .write ws => ws

/-- The data buffer at acceptance: for a read, all zero words, and none for a length of 0 or more than
16 (R40, R41). -/
def opBuffer : HostOp → List Word
  | .read n => if n ≤ 16 then List.replicate n 0 else []
  | .write _ => []

namespace State

/-! ### Acceptance (R37 to R41) -/

/-- The FREE entry with the lowest index (R37). -/
def freeEntry (s : State) : Option (Fin 32) := (List.finRange 32).find? fun i => s.entries[i].isNone

/-- The acceptance counter stands less than 2^31 − 1 ahead of every non-FREE entry's number; the
oldest is the one farthest behind (R37, R38). -/
def counterClear (s : State) : Bool :=
  s.entries.toList.all fun e => e.all fun e => (s.accCounter - e.num).toNat < 2 ^ 31 - 1

/-- R39's five checks in order: the fault kind and window of the first that fails. -/
def acceptanceCheck (s : State) (r : HostRequest) : Option (FaultKind × Option (Fin 16)) :=
  if r.addr.toNat % 4 ≠ 0 then some (.align, none)
  else if (opLen r.op) = 0 || 16 < (opLen r.op) then some (.length, none)
  else if 4096 < r.addr.toNat % 4096 + 4 * (opLen r.op) then some (.boundary, none)
  else if (opKind r.op) = .write && (s.guardWindow r.addr).isSome then
    some (.guard, s.guardWindow r.addr)
  else if (opWords r.op).any tornWord && (s.matchWindow r.addr).isSome then
    some (.torn, s.matchWindow r.addr)
  else none

end State

/-- The action of a request in a matched window's mode (R5). -/
def actionOf (m : Option Mode) (k : ReqKind) : Action :=
  match m, k with
  | none, _ => .pass
  | some .present, .read => .condRead
  | some .present, .write => .rawWritePresent
  | some .store, .read => .pass
  | some .store, .write => .condWrite
  | some .storeBoth, .read => .pass
  | some .storeBoth, .write => .condWriteShadow

/-- The entry of a DENIED request (R40). -/
def deniedEntry (r : HostRequest) (num : Word) : Entry :=
  ⟨.ready, (opKind r.op), r.tag, r.addr, (opLen r.op), num, none, .pass, none, 0, .denied, (opBuffer r.op), []⟩

/-- The entry of a request that passes the checks, with its matched window (R41). -/
def queuedEntry (r : HostRequest) (num : Word) (w : Option (Fin 16)) (m : Option Mode) : Entry :=
  ⟨.queued, (opKind r.op), r.tag, r.addr, (opLen r.op), num, w, actionOf m (opKind r.op), none, 0, .okay,
    (opBuffer r.op), (opWords r.op)⟩

/-- A matched window counts one more request in flight (R8). -/
def State.countIn (s : State) (w : Option (Fin 16)) : State :=
  match w with
  | none => s
  | some w => s.setWindow w { s.windows[w] with inflight := s.windows[w].inflight + 1 }

/-- A request is accepted into entry i (R38 to R41). -/
def State.accept (s : State) (i : Fin 32) (r : HostRequest) : State :=
  let t := { s with accCounter := s.accCounter + 1 }
  match s.acceptanceCheck r with
  | some (kind, w) =>
    (t.setEntry i (some (deniedEntry r s.accCounter))).offerFault
      ⟨kind, .host, w, some r.addr, some r.tag⟩
  | none =>
    let w := s.matchWindow r.addr
    let m := w.map fun w => s.windows[w].defn.mode
    { t.setEntry i (some (queuedEntry r s.accCounter w m)) with intake := s.intake ++ [i] }.countIn w

/-- The U port takes a host request (R39). While it withholds ready, the request is not accepted
(R37; log 1). -/
def execAcceptance (req : HostRequest) (s : State) : Result :=
  .next <|
    if s.phase = .serving && s.counterClear then
      match s.freeEntry with
      | none => s
      | some i => (s.accept i req).offerResponse
    else s

/-! ### Delivery (R59, R20) -/

/-- A window counts one request fewer; a DRAINING window whose count reaches 0 becomes DISABLED and
its deferred DISABLE replies OK (R8, R20). -/
def State.countOut (s : State) (w : Fin 16) : State :=
  let x := { s.windows[w] with inflight := s.windows[w].inflight - 1 }
  if x.state = .draining && x.inflight = 0 then
    (s.setWindow w { x with state := .disabled }).endWindowCommand w .ok []
  else s.setWindow w x

/-- The offered entry is freed (R59). -/
def State.deliver (s : State) (i : Fin 32) : State :=
  let t := { s.setEntry i none with offered := none }
  match s.entries[i] with
  | some e =>
    match e.window with
    | some w => t.countOut w
    | none => t
  | none => t

/-- The host takes the offered response (R59); with none on offer nothing happens (log 1). -/
def execResponseTaken (s : State) : Result :=
  .next <|
    match s.offered with
    | none => s
    | some i => (s.deliver i).offerResponse

/-! ### Issue (R44, R47, R116, R118) -/

/-- A tag's sub-request is issued now: its mark and its deadline (R47, R48). -/
def State.issueTag (s : State) (t : Fin 64) : State :=
  match s.tags[t] with
  | .inUse r =>
    s.setTag t (.inUse { r with
      issued := true
      deadline := if s.limit = 0 then none else some (s.usBase + s.limit.toNat) })
  | _ => s

/-- The sweep unit follows the issue of its current tag's sub-request (R116, R118). A tag of a block
that an ABORT discarded is not its current tag (R125). -/
def Sweep.issued (c : Sweep) (t : Fin 64) : Sweep :=
  if c.tag = some t then
    match c.phase with
    | .readIssuing => { c with phase := .readOut }
    | .writeIssuing => { c with phase := .writeOut }
    | _ => c
  else c

/-- Memory takes the sub-request that waits at the D port; the turn ends with its last (R47, R64).
With no turn nothing happens (log 1). -/
def execSubRequestIssue (s : State) : Result :=
  .next <|
    match s.turn with
    | none => s
    | some t =>
      match t.subs with
      | [] => { s with turn := none }
      | q :: rest =>
        { s.issueTag q.tag with
          sweep := s.sweep.map (·.issued q.tag)
          turn := if rest.isEmpty then none else some { t with subs := rest } }

/-! ### Memory responses (R49 to R52) -/

/-- The fault of a tag's sub-request: origin, window, address and host tag of its record (R49, R51,
R53). -/
def tagFault (kind : FaultKind) (r : TagRecord) : FaultInfo :=
  let origin := match r.owner with
    | .host _ _ => .host
    | .sweep _ => .sweep
  ⟨kind, origin, r.window, some r.addr, r.hostTag⟩

/-- The STRAY fault (R52). -/
def strayFault : FaultInfo := ⟨.stray, .host, none, none, none⟩

/-- The fault of an ERROR response (R49). -/
def memerrKind (k : ReqKind) : FaultKind := if k = .read then .memerrRead else .memerrWrite

/-- The status an answer combines (R50). -/
def combinedStatus : MemStatus → HostStatus
  | .okay => .okay
  | .error => .memerr

/-- A response answers an issued in-use tag (R50): the tag is free, an ERROR is recorded, and the
owner gets the status and the data. -/
def State.answerTag (s : State) (t : Fin 64) (r : TagRecord) (st : MemStatus) (ws : List Word) :
    State :=
  let f := s.setTag t .free
  let f := if st = .error then f.offerFault (tagFault (memerrKind r.kind) r) else f
  match r.owner with
  | .host i _ =>
    let f := if r.kind = .read && st = .okay then f.placeRead i ws else f
    f.answerEntry i (combinedStatus st)
  | .sweep _ => f.answerSweep t (combinedStatus st) ws

/-- A memory response is taken and matched to its tag's state (R49 to R52). While RESET_N is held the
part records nothing (R156, R180; log 12). -/
def execMemoryResponse (tag : Fin 64) (status : MemStatus) (words : List Word) (s : State) : Result :=
  .next <|
    if s.phase = .held then s
    else
      match s.tags[tag] with
      | .free => s.offerFault strayFault
      | .quarantined r => (s.setTag tag .free).offerFault (tagFault .late r)
      | .inUse r =>
        if r.issued then (s.answerTag tag r status words).offerResponse
        else s.offerFault strayFault

/-! ### Expiry (R53) -/

/-- An issued in-use tag expires (R53). -/
def State.expireTag (s : State) (t : Fin 64) (r : TagRecord) : State :=
  let q := (s.setTag t (.quarantined r)).offerFault (tagFault .expired r)
  match r.owner with
  | .host i _ => q.answerEntry i .expired
  | .sweep _ => q.answerSweep t .expired []

/-- A tag's deadline passes, when the microsecond base has reached it (R53, R143). -/
def State.passTag (s : State) (tag : Fin 64) : State :=
  match s.tags[tag] with
  | .inUse r =>
    if r.issued && r.deadline.any (· ≤ s.usBase) then (s.expireTag tag r).offerResponse else s
  | _ => s

/-- EXPIRY (R53). A tag with no deadline reached does not expire (log 1). -/
def execExpiry (tag : Fin 64) (s : State) : Result := .next (s.passTag tag)

end Sys2Proof.Machine
end

