-- ==== Sys2Proof/Machine/Deadlines.lean ====
section
/-! DEFINITION. The step of the internal time bases, and the deadlines that pass with it (R143). -/

namespace Sys2Proof.Machine

/-- Every deadline that the bases have reached passes: D responses in the order of their tags, zero
captures in the order of their windows, the inter-byte gap (R53, R138, R143, R159). The order is the
model's choice (log 5). Irreducible, so that proofs go through its lemmas and do not run the folds. -/
@[irreducible] def State.passDeadlines (s : State) : State :=
  ((List.finRange 16).foldl State.passCapture ((List.finRange 64).foldl State.passTag s)).passGap

/-- An event of a step is taken, when it is due: a deadline that is not reached, or a BREAK that R171 does
not allow, is none. -/
def State.takeEvent (s : State) : StepEvent → State
  | .expiry t => s.passTag t
  | .captureDeadline w => s.passCapture w
  | .interByteGap => s.passGap
  | .lineBreak => s.detectBreak

/-- TIMEBASE_INCREMENT: a step of the internal microsecond base, which runs always (R143), and the
counting event it is under source INTERNAL (R144). Every deadline that the base reaches passes at this
step (R143). Those named, and a BREAK, are taken in the order of the operands, since either of two events
of one step may be taken first (R172; log 5); the others follow. -/
def execTimebaseIncrement (s : State) (early : List StepEvent := []) (late : List StepEvent := []) :
    Result :=
  let counted := (early.foldl State.takeEvent s.stepBase).countEvent .internal
  .next (late.foldl State.takeEvent counted).passDeadlines

end Sys2Proof.Machine
end

