-- ==== Sys2Proof/Machine/Engine.lean ====
section
/-! DEFINITION. The conditioning engine (chapter 4): a host turn and the two sweep turns, each taken
when the arbiter grants it (R67). -/

namespace Sys2Proof.Machine

/-! ### The host turn (R71 to R76) -/

/-- The recorded window's definition and channel records at the take; none for an entry that records
no window, which proceeds as PASS (R71). -/
def State.takenWindow (s : State) (e : Entry) : Option (Fin 16 × Window) :=
  e.window.map fun w => (w, s.windows[w])

/-- The main sub-request's data: conditioned for the two conditioning actions, else as received (R44,
R72, R74 to R76). -/
def mainData (e : Entry) (x : Option (Fin 16 × Window)) : List WriteWord :=
  match e.action, x with
  | .condWrite, some (_, v) => conditionBurst v.defn v.chans e.addr.toNat e.writeData
  | .condWriteShadow, some (_, v) => conditionBurst v.defn v.chans e.addr.toNat e.writeData
  | _, _ => e.writeData

/-- The address of the raw copy: the same offset in the shadow range (R6, R75). -/
def shadowAddr (d : WindowDef) (a : Word) : Word := d.shadow.getD 0 + (a - d.base)

/-- The sub-requests of an entry's action with the tags drawn, main before shadow (R44, R75). -/
def hostSubs (e : Entry) (x : Option (Fin 16 × Window)) (tags : List (Fin 64)) :
    List (HostRole × SubRequest) :=
  match tags with
  | [] => []
  | t :: rest =>
    let main := (HostRole.main, ⟨t, e.kind, e.addr, e.len, mainData e x⟩)
    match e.action, x, rest with
    | .condWriteShadow, some (_, v), u :: _ =>
      [main, (.shadow, ⟨u, .write, shadowAddr v.defn e.addr, e.len, e.writeData⟩)]
    | _, _, _ => [main]

/-- The record of a tag drawn for an entry (R46). -/
def hostRecord (i : Fin 32) (e : Entry) (p : HostRole × SubRequest) : TagRecord :=
  ⟨.host i p.1, p.2.kind, p.2.addr, p.2.len, e.window, some e.hostTag, false, none⟩

/-- The samples of a take: the complete lanes of a conditioned or raw-present write (R74, R76, R77). -/
def takenSamples (e : Entry) (x : Option (Fin 16 × Window)) : List Sample :=
  match e.action, x with
  | .condWrite, some (_, v) => burstSamples v.defn v.chans e.addr.toNat e.writeData
  | .condWriteShadow, some (_, v) => burstSamples v.defn v.chans e.addr.toNat e.writeData
  | .rawWritePresent, some (_, v) => burstSamples v.defn v.chans e.addr.toNat e.writeData
  | _, _ => []

/-- The entry after its take (R71, R73). -/
def takenEntry (e : Entry) (x : Option (Fin 16 × Window)) (n : Nat) : Entry :=
  { e with
    state := .issued
    pending := n
    snapshot := if e.action = .condRead then x.map fun p => p.2.chans else none
    writeData := [] }

/-- The tags of a take are in use, not issued (R46). -/
def State.drawTags (s : State) (l : List (Fin 64 × TagRecord)) : State :=
  l.foldl (fun t p => t.setTag p.1 (.inUse p.2)) s

/-- The samples of a take go to the recorded window's consumers (R77). -/
def State.handTaken (s : State) (e : Entry) (x : Option (Fin 16 × Window)) : State :=
  match x with
  | some (w, _) => s.handSamples w (takenSamples e x)
  | none => s

/-- The take of entry i (R71), and the fairness count of a host turn (R68). -/
def State.takeEntry (s : State) (i : Fin 32) (e : Entry) : State :=
  let x := s.takenWindow e
  let subs := hostSubs e x (s.freeTags.take (tagsNeeded e.action))
  let drawn := s.drawTags (subs.map fun p => (p.2.tag, hostRecord i e p))
  { drawn.setEntry i (some (takenEntry e x subs.length)) with
    intake := s.intake.tail
    fairness := if s.sweepReady then s.fairness + 1 else s.fairness
    turn := some ⟨.host i, subs.map Prod.snd⟩ }.handTaken e x

/-- A host turn (R71). Where the arbiter grants no host turn, none is taken (R67; log 1). -/
def execHostTurn (s : State) : Result :=
  .next <|
    match s.grant, s.headEntry with
    | some .host, some (i, e) => s.takeEntry i e
    | _, _ => s

/-! ### Sweep turns (R78, R116, R118) -/

/-- The tag record of a sweep sub-request (R46, R78). -/
def sweepRecord (c : Sweep) (role : ReqKind) (addr : Word) : TagRecord :=
  ⟨.sweep role, role, addr, 16, some c.window, none, false, none⟩

/-- The sweep's turn with a tag: the tag is in use and current, the turn holds the sub-request, and
the fairness count is 0 (R68, R116, R118). -/
def State.takeSweepTurn (s : State) (c : Sweep) (role : ReqKind) (t : Fin 64) (addr : Word)
    (data : List WriteWord) (phase : SweepPhase) : State :=
  { s.setTag t (.inUse (sweepRecord c role addr)) with
    fairness := 0
    turn := some ⟨.sweep role, [⟨t, role, addr, 16, data⟩]⟩
    sweep := some { c with tag := some t, phase := phase, block := none } }

/-- The shadow address of the block at the cursor (R78, R116). -/
def sweepReadAddr (c : Sweep) (d : WindowDef) : Word :=
  BitVec.ofNat 32 ((d.shadow.getD 0).toNat + (c.cursor - d.base.toNat))

/-- The conditioned block, all byte enables set (R78, R118). -/
def sweepWriteData (c : Sweep) (x : Window) : List WriteWord :=
  conditionBurst x.defn x.chans c.cursor (fullWords (c.block.getD []))

/-- The sweep's read turn (R116). Where the arbiter grants no sweep turn, or the sweep presents no
read, none is taken (R67; log 1). -/
def execSweepReadTurn (s : State) : Result :=
  .next <|
    match s.grant, s.sweep, s.freeTags with
    | some .sweep, some c, t :: _ =>
      if c.phase = .readPending then
        s.takeSweepTurn c .read t (sweepReadAddr c s.windows[c.window].defn) [] .readIssuing
      else s
    | _, _, _ => s

/-- The sweep's write turn (R118). Where the arbiter grants no sweep turn, or the sweep presents no
write, none is taken (R67; log 1). -/
def execSweepWriteTurn (s : State) : Result :=
  .next <|
    match s.grant, s.sweep, s.freeTags with
    | some .sweep, some c, t :: _ =>
      if c.phase = .writePending then
        s.takeSweepTurn c .write t (BitVec.ofNat 32 c.cursor)
          (sweepWriteData c s.windows[c.window]) .writeIssuing
      else s
    | _, _, _ => s

end Sys2Proof.Machine
end

