-- ==== Sys2Proof/Machine/StartUp.lean ====
section
/-! DEFINITION. Start-up (section 11.2): hardware reset, its end, the load and the opening. -/

namespace Sys2Proof.Machine

/-- A commit pending at a reset: once its marker is written the target is valid; before that the
target stays invalid (R185). -/
def State.resetStore (s : State) (markerWritten : Bool) : State :=
  match s.boot.commit with
  | some p => if markerWritten then s.setCopy p.target (writtenCopy p.generation p.image) else s
  | none => s

/-- Every block takes its reset value (R180). The microsecond base runs on (R143), the boot store is
non-volatile (R178), the status record loses only its pending commit (R178), and the rate holds
until the reset ends (R157). -/
def State.hardwareReset (s : State) (markerWritten : Bool) : State :=
  let t := s.resetStore markerWritten
  { State.reset with
    pending := s.pending
    freeCount := s.freeCount
    linkRate := s.linkRate
    usBase := s.usBase
    copyA := t.copyA
    copyB := t.copyB
    boot := { s.boot with commit := none } }

/-- Power-on, or RESET_N asserted, at any time (R180). -/
def execHardwareReset (markerWritten : Bool) (s : State) : Result :=
  .next (s.hardwareReset markerWritten)

/-- The hardware reset ends: LRATE is sampled and reading of the boot store begins (R180). -/
def execResetEnd (rate : LinkRate) (s : State) : Result :=
  .next (if s.phase = .held then { s with phase := .reading, linkRate := rate } else s)

/-- The load, at one moment (R181): the status record, the notice queue, the configuration, the
timebase, the boot fault. -/
def State.load (s : State) (lostA lostB : Bool) : State :=
  let r := { (s.loseCopies lostA lostB).readStore with phase := .loaded }
  (r.loadImage r.activeImage).offerBootFault

/-- Reading of both copies finishes (R181). At any other stage nothing happens (log 1). -/
def execLoad (lostA lostB : Bool) (s : State) : Result :=
  .next (if s.phase = .reading then s.load lostA lostB else s)

/-- The opening (R182): the U port and the link open, the receiver in HUNT, and the transmitter makes
its first choice (R170). A line that is low is timed from now (R171). At any other stage nothing happens
(log 1). -/
def execOpening (s : State) : Result :=
  .next <|
    if s.phase = .loaded then { s.timeLine.dropPacket with phase := .serving }.transmit else s

end Sys2Proof.Machine
end

