-- ==== Sys2Proof/Machine/Dispatch.lean ====
section
/-! DEFINITION. `exec`: one arm for each command, each a direct call of its meaning. -/

namespace Sys2Proof.Machine

/-- A command's effect on everything but the queue. -/
def exec (i : Instr) (s : State) : Host.Outcome State Fault Refusal :=
  match i with
  | .hardwareReset m => Sys2Proof.Machine.execHardwareReset m s
  | .resetEnd rate => Sys2Proof.Machine.execResetEnd rate s
  | .load lostA lostB => Sys2Proof.Machine.execLoad lostA lostB s
  | .opening => Sys2Proof.Machine.execOpening s
  | .acceptance req => Sys2Proof.Machine.execAcceptance req s
  | .responseTaken => Sys2Proof.Machine.execResponseTaken s
  | .hostTurn => Sys2Proof.Machine.execHostTurn s
  | .sweepReadTurn => Sys2Proof.Machine.execSweepReadTurn s
  | .sweepWriteTurn => Sys2Proof.Machine.execSweepWriteTurn s
  | .subRequestIssue => Sys2Proof.Machine.execSubRequestIssue s
  | .memoryResponse tag status words => Sys2Proof.Machine.execMemoryResponse tag status words s
  | .expiry tag => Sys2Proof.Machine.execExpiry tag s
  | .captureDeadline w => Sys2Proof.Machine.execCaptureDeadline w s
  | .strobeEdge edge => Sys2Proof.Machine.execStrobeEdge edge s
  | .timebaseIncrement early late => Sys2Proof.Machine.execTimebaseIncrement s early late
  | .linkByteReceived b => Sys2Proof.Machine.execLinkByteReceived b s
  | .interByteGap => Sys2Proof.Machine.execInterByteGap s
  | .linkBreak => Sys2Proof.Machine.execLinkBreak s
  | .breakEnd => Sys2Proof.Machine.execBreakEnd s
  | .transmitterChoice => Sys2Proof.Machine.execTransmitterChoice s
  | .transmissionEnd => Sys2Proof.Machine.execTransmissionEnd s
  | .undefinedCommand unit code trn payload => Sys2Proof.Machine.execUndefinedCommand unit code trn payload s
  | .getIdentity trn => Sys2Proof.Machine.execGetIdentity trn s
  | .getStatus trn => Sys2Proof.Machine.execGetStatus trn s
  | .setLimits trn limit => Sys2Proof.Machine.execSetLimits trn limit s
  | .getLinkCounters trn flags => Sys2Proof.Machine.execGetLinkCounters trn flags s
  | .define w trn base pages mode format count flags shadow => Sys2Proof.Machine.execDefine w trn base pages mode format count flags shadow s
  | .setChannel w trn channel gain offset low high => Sys2Proof.Machine.execSetChannel w trn channel gain offset low high s
  | .enable w trn => Sys2Proof.Machine.execEnable w trn s
  | .disable w trn => Sys2Proof.Machine.execDisable w trn s
  | .query w trn channel => Sys2Proof.Machine.execQuery w trn channel s
  | .sweep w trn start count => Sys2Proof.Machine.execSweep w trn start count s
  | .zeroCapture w trn channel n limit => Sys2Proof.Machine.execZeroCapture w trn channel n limit s
  | .abort w trn => Sys2Proof.Machine.execAbort w trn s
  | .readStats w trn slot flags => Sys2Proof.Machine.execReadStats w trn slot flags s
  | .monSet trn monitor window channel level hysteresis direction mode => Sys2Proof.Machine.execMonSet trn monitor window channel level hysteresis direction mode s
  | .monArm trn monitor => Sys2Proof.Machine.execMonArm trn monitor s
  | .monRelease trn monitor => Sys2Proof.Machine.execMonRelease trn monitor s
  | .monQuery trn monitor => Sys2Proof.Machine.execMonQuery trn monitor s
  | .tbSet trn source edge preset => Sys2Proof.Machine.execTbSet trn source edge preset s
  | .tbRead trn => Sys2Proof.Machine.execTbRead trn s
  | .faultPeek trn => Sys2Proof.Machine.execFaultPeek trn s
  | .faultPop trn => Sys2Proof.Machine.execFaultPop trn s
  | .faultClear trn => Sys2Proof.Machine.execFaultClear trn s
  | .bootCommit trn => Sys2Proof.Machine.execBootCommit trn s
  | .commitEnd outcome => Sys2Proof.Machine.execCommitEnd outcome s
  | .bootReload trn lostA lostB => Sys2Proof.Machine.execBootReload trn lostA lostB s
  | .bootQuery trn => Sys2Proof.Machine.execBootQuery trn s

end Sys2Proof.Machine
end

