-- ==== Sys2Proof/WellFormed.lean ====
section
/-! DEFINITION. Which terms of `Instr` are commands the part can be sent. The types keep every operand
in its range but for UNDEFINED_COMMAND's packet and the bytes that COMMIT_END reads back. -/

namespace Sys2Proof

/-- A payload fits a packet (R189). -/
def payloadFits (payload : List Byte) : Bool := payload.length ≤ 48

/-- The bytes that a commit's target reads back are those of a copy after its marker (R184, R197). -/
def readBackFits : CommitOutcome → Bool
  | .bodyMismatch readBack => readBack.length = 892
  | .markerReadBack _ => true

/-- UNDEFINED_COMMAND is a packet that fails check 2, 3 or 4 of R163 and fits a packet; COMMIT_END reads
back the bytes of a copy; every other term is well-formed. -/
def Instr.wellFormed : Instr → Bool
  | .hardwareReset _ => true
  | .resetEnd _ => true
  | .load _ _ => true
  | .opening => true
  | .acceptance _ => true
  | .responseTaken => true
  | .hostTurn => true
  | .sweepReadTurn => true
  | .sweepWriteTurn => true
  | .subRequestIssue => true
  | .memoryResponse _ _ _ => true
  | .expiry _ => true
  | .captureDeadline _ => true
  | .strobeEdge _ => true
  | .timebaseIncrement _ _ => true
  | .linkByteReceived _ => true
  | .interByteGap => true
  | .linkBreak => true
  | .breakEnd => true
  | .transmitterChoice => true
  | .transmissionEnd => true
  | .undefinedCommand unit code trn payload =>
    payloadFits payload && (Machine.undefinedStatus ⟨unit, code, trn, payload⟩).isSome
  | .getIdentity _ => true
  | .getStatus _ => true
  | .setLimits _ _ => true
  | .getLinkCounters _ _ => true
  | .define _ _ _ _ _ _ _ _ _ => true
  | .setChannel _ _ _ _ _ _ _ => true
  | .enable _ _ => true
  | .disable _ _ => true
  | .query _ _ _ => true
  | .sweep _ _ _ _ => true
  | .zeroCapture _ _ _ _ _ => true
  | .abort _ _ => true
  | .readStats _ _ _ _ => true
  | .monSet _ _ _ _ _ _ _ _ => true
  | .monArm _ _ => true
  | .monRelease _ _ => true
  | .monQuery _ _ => true
  | .tbSet _ _ _ _ => true
  | .tbRead _ => true
  | .faultPeek _ => true
  | .faultPop _ => true
  | .faultClear _ => true
  | .bootCommit _ => true
  | .commitEnd outcome => readBackFits outcome
  | .bootReload _ _ _ => true
  | .bootQuery _ => true

end Sys2Proof
end

