-- ==== Sys2Proof/Safety.lean ====
section
/-! DEFINITION. What the statements speak of: when the link takes a command, what an immediate reply
and a registered command leave, and the invariants that every step keeps. -/

namespace Sys2Proof.Machine

/-! ### Commands on the link -/

/-- The link takes a command of this TRN, and slot k is the one it gets (R162, R163): the link is open
and no BREAK holds it, the TRN is one a command may carry and is not pending, and k is the free
slot with the lowest number. -/
abbrev LinkTakes (s : State) (trn : Byte) (k : Fin 16) : Prop :=
  s.phase = .serving ∧ s.breakLow = false ∧ trn ≠ 0 ∧ trn ≠ 255 ∧ s.slots[k] = .free ∧
    (∀ j : Fin 16, j < k → s.slots[j] ≠ .free) ∧ ∀ d ∈ s.deferred, d.trn ≠ trn

/-- s with an immediate reply made in slot k (R166, R167), its command's last stop bit having been high
(R157, R171): nothing else differs. -/
def replied (s : State) (k : Fin 16) (unit trn : Byte) (status : Status) (payload : List Byte) :
    State :=
  { s with
    slots := s.slots.set k (.queued ⟨unit, status, trn, payload⟩)
    replyQueue := s.replyQueue ++ [k]
    rxHigh := true }

/-- s with a deferred command registered in slot k (R164, R166), its last stop bit having been high (R157,
R171): nothing else differs. -/
def registered (s : State) (k : Fin 16) (unit trn code : Byte) : State :=
  { s with
    slots := s.slots.set k (.held trn unit)
    deferred := s.deferred ++ [⟨trn, unit, code, k⟩]
    rxHigh := true }

/-- A window's deferred command stands in the dispatcher's list as entry d, the first of its TRN
(R164). -/
abbrev Registered (s : State) (w : Fin 16) (d : DeferredEntry) : Prop :=
  s.windows[w].deferred.map (·.trn) = some d.trn ∧ s.deferred.find? (·.trn = d.trn) = some d

/-- s with the deferred command of list entry d answered (R164, R166): nothing else differs. -/
def answeredDeferred (s : State) (d : DeferredEntry) (status : Status) (payload : List Byte) : State :=
  { s with
    deferred := s.deferred.filter (·.trn ≠ d.trn)
    slots := s.slots.set d.slot (.queued ⟨d.unit, status, d.trn, payload⟩)
    replyQueue := s.replyQueue ++ [d.slot] }

/-! ### Loading a boot image -/

/-- The configuration that an image holds stands in the part (R1, R48, R93, R145). -/
abbrev HoldsImage (t : State) (i : BootImage) : Prop :=
  (∀ w : Fin 16, t.windows[w] =
      ⟨i.windows[w].defn, i.windows[w].chans,
        if i.windows[w].enabled then .enabled else .disabled, .idle, false, 0, none⟩)
    ∧ (∀ m : Fin 16, t.monitors[m] =
        match i.monitors[m] with
        | some b => ⟨.armed, some b, .unknown, 0, none⟩
        | none => ⟨.unbound, none, .unknown, 0, none⟩)
    ∧ t.tbSource = i.source ∧ t.tbEdge = i.edge ∧ t.limit = i.limit

/-- t is loaded from the boot store of s, where lostA and lostB say which copies have become invalid:
the status record, and the configuration of the active copy, or the defaults when none is active (R178,
R181 steps 1 and 3, R186). -/
abbrev LoadedFrom (s t : State) (lostA lostB : Bool) : Prop :=
  let a := s.copyA.valid && !lostA
  let b := s.copyB.valid && !lostB
  t.boot.genA = (if a then some s.copyA.generation else none)
    ∧ t.boot.genB = (if b then some s.copyB.generation else none)
    ∧ t.boot.active =
      (if a && (!b || s.copyB.generation.toNat ≤ s.copyA.generation.toNat) then some .a
        else if b then some .b else none)
    ∧ t.boot.commit = none
    ∧ HoldsImage t
      (match t.boot.active with
        | some .a => decodeImage s.copyA.payload
        | some .b => decodeImage s.copyB.payload
        | none => defaultImage)
    ∧ t.copyA = (if lostA then { s.copyA with marker := 0 } else s.copyA)
    ∧ t.copyB = (if lostB then { s.copyB with marker := 0 } else s.copyB)

/-- The boot fault that a load offers: R181's table. -/
def bootFault (validA validB : Bool) : Option FaultKind :=
  if validA && validB then none else if validA || validB then some .bootOneCopy else some .bootNone

/-- s after its boot fault, when there is one. -/
def withBootFault (s : State) (validA validB : Bool) : State :=
  match bootFault validA validB with
  | some k => s.offerFault ⟨k, .boot, none, none, none⟩
  | none => s

/-! ### Acceptance -/

/-- The U port takes a request now, into entry i (R37). -/
abbrev Accepts (s : State) (i : Fin 32) : Prop :=
  s.phase = .serving ∧ s.entries[i] = none ∧ (∀ j : Fin 32, j < i → s.entries[j] ≠ none)
    ∧ ∀ (j : Fin 32) (e : Entry), s.entries[j] = some e → (s.accCounter - e.num).toNat < 2 ^ 31 - 1

/-- m is the one ENABLED window whose main range holds the address, or none (R2, R4). -/
abbrev MatchedBy (s : State) (a : Word) (m : Option (Fin 16)) : Prop :=
  ∀ w : Fin 16, m = some w ↔
    s.windows[w].state = .enabled ∧ s.windows[w].defn.base.toNat ≤ a.toNat
      ∧ a.toNat < s.windows[w].defn.base.toNat + s.windows[w].defn.pages * 4096

/-- m is the one ENABLED STORE_BOTH window whose shadow range holds the address, or none (R2, R7). -/
abbrev GuardedBy (s : State) (a : Word) (m : Option (Fin 16)) : Prop :=
  ∀ w : Fin 16, m = some w ↔
    s.windows[w].state = .enabled ∧ s.windows[w].defn.mode = .storeBoth
      ∧ s.windows[w].defn.shadow.any (fun b =>
          b.toNat ≤ a.toNat ∧ a.toNat < b.toNat + s.windows[w].defn.pages * 4096) = true

/-- A word of write data has a lane with exactly one of its two enables set (R23). -/
abbrev HasTornLane (x : WriteWord) : Prop :=
  x.enables.getLsbD 0 ≠ x.enables.getLsbD 1 ∨ x.enables.getLsbD 2 ≠ x.enables.getLsbD 3

/-- s with entry i filled as given and queued, its matched window's in-flight count one higher (R38,
R41). -/
def queuedAs (s : State) (i : Fin 32) (m : Option (Fin 16)) (e : Entry) : State :=
  { s with
    entries := s.entries.set i (some e)
    accCounter := s.accCounter + 1
    intake := s.intake ++ [i]
    windows :=
      match m with
      | none => s.windows
      | some w => s.windows.set w { s.windows[w] with inflight := s.windows[w].inflight + 1 } }

/-- s with a DENIED entry i of this request, and its fault offered (R38, R39, R40). -/
def deniedAs (s : State) (i : Fin 32) (tag : Fin 16) (addr : Word) (kind : ReqKind) (len : Nat)
    (fault : FaultKind) (window : Option (Fin 16)) : State :=
  { s with
    entries := s.entries.set i (some ⟨.ready, kind, tag, addr, len, s.accCounter, none, .pass, none, 0,
      .denied, if kind = ReqKind.read ∧ len ≤ 16 then List.replicate len 0 else [], []⟩)
    accCounter := s.accCounter + 1 }.offerFault ⟨fault, .host, window, some addr, some tag⟩

/-! ### The engine -/

/-- Tag t is the lowest free one (R46). -/
abbrev LowestFree (s : State) (t : Fin 64) : Prop :=
  s.tags[t] = .free ∧ ∀ u : Fin 64, u < t → s.tags[u] ≠ .free

/-- Tags t and u are the two lowest free ones, t below u (R46). -/
abbrev LowestTwoFree (s : State) (t u : Fin 64) : Prop :=
  LowestFree s t ∧ t < u ∧ s.tags[u] = .free ∧ ∀ v : Fin 64, t < v → v < u → s.tags[v] ≠ .free

/-- The engine grants the host its turn, which takes entry i, e at the head of the intake queue
(R67). -/
abbrev HostGranted (s : State) (i : Fin 32) (e : Entry) (rest : List (Fin 32)) : Prop :=
  s.grant = some .host ∧ s.intake = i :: rest ∧ s.entries[i] = some e

/-- s after a host turn takes entry i: the entry leaves the queue, the fairness count follows R68, the
tags are in use, and the turn holds the sub-requests (R46, R64, R68, R71). -/
def takenAs (s : State) (i : Fin 32) (e : Entry) (rest : List (Fin 32))
    (tags : Vector Tag 64) (subs : List SubRequest) : State :=
  { s with
    intake := rest
    fairness := if s.sweepReady then s.fairness + 1 else s.fairness
    tags := tags
    entries := s.entries.set i (some e)
    turn := some ⟨.host i, subs⟩ }

/-- The span of a write shares a byte with the sweep block in flight (R69). -/
abbrev HeldByBlock (s : State) (e : Entry) : Prop :=
  e.kind = .write ∧ ∃ c, s.sweep = some c
    ∧ (c.phase = .readOut ∨ c.phase = .writePending ∨ c.phase = .writeIssuing)
    ∧ ∃ a : Nat, c.cursor ≤ a ∧ a < c.cursor + 64 ∧ e.addr.toNat ≤ a ∧ a < e.addr.toNat + 4 * e.len

/-! ### Deadlines -/

/-- The deadline of tag t's issued sub-request, when it has one (R47). -/
def State.tagDeadline (s : State) (t : Fin 64) : Option Nat :=
  match s.tags[t] with
  | .inUse r => if r.issued then r.deadline else none
  | _ => none

/-- Every deadline that stands, the end of an inter-byte gap among them, comes when the microsecond base
reaches b or later; a capture's is a count of the millisecond base, which is its quotient by 1000 (R47,
R131, R143, R159, log 4). -/
abbrev DeadlinesFrom (s : State) (b : Nat) : Prop :=
  (∀ t : Fin 64, ∀ d ∈ s.tagDeadline t, b ≤ d)
    ∧ (∀ w : Fin 16, ∀ k ∈ s.captures[w], k.count < 2 ^ k.n → b ≤ 1000 * k.deadline)
    ∧ (s.rx.state ≠ .hunt → b ≤ s.rx.lastAt + 2000)

/-- The state after a run of commands. Irreducible, as `State.passDeadlines` is. -/
@[irreducible] def runAll (s : State) (cs : List Instr) : State :=
  cs.foldl (fun t c => match exec c t with
    | .next u => u
    | .fault _ => t
    | .refused _ => t) s

/-- The row of an event of a step. -/
def eventRow : StepEvent → Instr
  | .expiry t => .expiry t
  | .captureDeadline w => .captureDeadline w
  | .interByteGap => .interByteGap
  | .lineBreak => .linkBreak

/-- The rows of the deadlines in the order in which they pass together (log 5). -/
def deadlineRows : List Instr :=
  (List.finRange 64).map .expiry ++ (List.finRange 16).map .captureDeadline ++ [.interByteGap]

/-! ### The receiver -/

/-- The state after a run of received characters. -/
def receiveAll (s : State) (bs : List Byte) : State :=
  bs.foldl (fun t b => match exec (.linkByteReceived b) t with
    | .next u => u
    | .fault _ => t
    | .refused _ => t) s

/-! ### Invariants -/

/-- The fault list holds at most 8 records of repeat count 1 to 255, and ALERT is active exactly when
it is non-empty (R148, R149, R155). -/
abbrev FaultListSound (s : State) : Prop :=
  s.faults.length ≤ 8 ∧ s.alert = !s.faults.isEmpty ∧ ∀ r ∈ s.faults, 1 ≤ r.repeats ∧ r.repeats ≤ 255

/-- Slot k is QUEUED. -/
def Slot.isQueued : Slot → Bool
  | .queued _ => true
  | _ => false

/-- Slot k is SENDING. -/
def Slot.isSending : Slot → Bool
  | .sending _ => true
  | _ => false

/-- The slot whose reply is being sent, if a reply is. -/
def Transmitter.slot : Transmitter → Option (Fin 16)
  | .idle => none
  | .sending k _ => k
  | .cutOff _ => none

/-- What a HELD slot holds. -/
def Slot.heldFor : Slot → Option (Byte × Byte)
  | .held trn unit => some (trn, unit)
  | _ => none

/-- The link's queues and slots agree: the reply queue lists each QUEUED slot once, a SENDING slot is
the transmitter's, the HELD slots are those of the deferred-command list, no two of whose entries
share a TRN or a slot, and the counts keep their ranges (R161, R164, R166, R168, R169). -/
abbrev LinkSound (s : State) : Prop :=
  s.replyQueue.Nodup
    ∧ (∀ k : Fin 16, s.slots[k].isQueued = true ↔ k ∈ s.replyQueue)
    ∧ (∀ k : Fin 16, s.slots[k].isSending = true ↔ s.tx.slot = some k)
    ∧ (s.deferred.map DeferredEntry.trn).Nodup
    ∧ (s.deferred.map DeferredEntry.slot).Nodup
    ∧ (∀ d ∈ s.deferred, s.slots[d.slot].heldFor = some (d.trn, d.unit))
    ∧ (∀ k : Fin 16, s.slots[k].heldFor.isSome = true → ∃ d ∈ s.deferred, d.slot = k)
    ∧ s.notices.length ≤ 8 ∧ s.lost ≤ 255 ∧ s.runCount ≤ 4
    ∧ s.counters.framing ≤ 65535 ∧ s.counters.crc ≤ 65535 ∧ s.counters.badTrn ≤ 65535
    ∧ s.counters.overrun ≤ 65535 ∧ s.counters.breaks ≤ 65535

/-- The sweep context belongs to window w. -/
def State.sweepsWindow (s : State) (w : Fin 16) : Bool := s.sweep.any (·.window = w)

/-- The lifecycle of a window entry (R3, R11, R111, R131): a DISABLED window is IDLE with no deferred
command; a DRAINING one is IDLE with a deferred DISABLE and requests in flight; an ENABLED one
holds a deferred command of its activity's kind exactly while it is busy; and the sweep context and
the capture contexts are those of the SWEEPING and the ZEROING windows. No sweep runs before the
opening. -/
abbrev LifecycleSound (s : State) : Prop :=
  (∀ w : Fin 16,
    (s.windows[w].state = .disabled → s.windows[w].activity = .idle ∧ s.windows[w].deferred = none)
    ∧ (s.windows[w].state = .draining →
        s.windows[w].activity = .idle ∧ s.windows[w].deferred.map (·.kind) = some .disable
          ∧ 1 ≤ s.windows[w].inflight)
    ∧ (s.windows[w].state = .enabled →
        s.windows[w].deferred.map (·.kind) =
          match s.windows[w].activity with
          | .idle => none
          | .sweeping => some .sweep
          | .zeroing => some .zero)
    ∧ (s.windows[w].activity = .sweeping ↔ s.sweepsWindow w = true)
    ∧ (s.windows[w].activity = .zeroing ↔ s.captures[w].isSome = true))
  ∧ (s.phase ≠ .serving → s.sweep = none)

/-- The number of non-FREE entries that record a window (R8). -/
def State.recorded (s : State) (w : Fin 16) : Nat :=
  s.entries.toList.countP fun e => e.any (·.window = some w)

/-- Every window's in-flight count is the number of non-FREE entries that record it; a DISABLED
window's is 0; the table is empty before the opening (R8, R60, R182). -/
abbrev InFlightSound (s : State) : Prop :=
  (∀ w : Fin 16, s.windows[w].inflight = s.recorded w
    ∧ (s.windows[w].state = .disabled → s.windows[w].inflight = 0))
  ∧ (s.phase ≠ .serving → ∀ i : Fin 32, s.entries[i] = none)

/-- Tag t is in use for entry i. -/
def State.ownedBy (s : State) (i : Fin 32) (t : Fin 64) : Bool :=
  match s.tags[t] with
  | .inUse r =>
    match r.owner with
    | .host j _ => j = i
    | .sweep _ => false
  | _ => false

/-- The number of in-use tags that entry i owns (R42). -/
def State.owned (s : State) (i : Fin 32) : Nat := (List.finRange 64).countP (s.ownedBy i)

/-- The state of entry i, when it is not FREE. -/
def State.entryState (s : State) (i : Fin 32) : Option EntryState := s.entries[i].map (·.state)

/-- The intake queue lists each QUEUED entry once; an ISSUED entry owns as many in-use tags as it has
sub-requests pending, 1 or 2, and any other entry owns none; the entry on offer is READY; and no
deadline stands that the microsecond base has reached, so that an answer, a sample or a byte is never
taken after its deadline (R42, R50, R57, R62, R139, R143, R159). -/
abbrev TrackingSound (s : State) : Prop :=
  s.intake.Nodup
  ∧ (∀ i : Fin 32, s.entryState i = some .queued ↔ i ∈ s.intake)
  ∧ (∀ i : Fin 32, s.entryState i = some .issued →
      s.entries[i].map (·.pending) = some (s.owned i) ∧ 1 ≤ s.owned i ∧ s.owned i ≤ 2)
  ∧ (∀ i : Fin 32, s.entryState i ≠ some .issued → s.owned i = 0)
  ∧ (∀ i : Fin 32, s.offered = some i → s.entryState i = some .ready)
  ∧ DeadlinesFrom s (s.usBase + 1)

/-- The windows of an image flagged enabled never conflict, and each of its definitions is one that
DEFINE would accept (R179). -/
abbrev ImageSound (i : BootImage) : Prop :=
  (∀ v : Fin 16, i.windows[v].defn.acceptable = true)
  ∧ ∀ v w : Fin 16, v ≠ w → i.windows[v].enabled = true → i.windows[w].enabled = true →
      i.windows[v].defn.meets i.windows[w].defn = false

/-- The overlap law (R9): no range of a window that is ENABLED or DRAINING overlaps a range of another,
and each definition is one that DEFINE would accept (R13). A valid copy, and a pending commit's
snapshot, hold a sound image (R179). -/
abbrev OverlapSound (s : State) : Prop :=
  (∀ v : Fin 16, s.windows[v].defn.acceptable = true)
  ∧ (∀ v w : Fin 16, v ≠ w → s.windows[v].inService = true → s.windows[w].inService = true →
      s.windows[v].defn.meets s.windows[w].defn = false)
  ∧ (s.copyA.valid = true → ImageSound (decodeImage s.copyA.payload))
  ∧ (s.copyB.valid = true → ImageSound (decodeImage s.copyB.payload))
  ∧ (∀ p, s.boot.commit = some p → ImageSound p.image)

end Sys2Proof.Machine
end

