-- ==== Sys2Proof/Certificates/Slice0/Obligations.lean ====
section
/-! DEFINITION. The statements for the provers, chapter by chapter. A statement of a command is an
equation for the state it leaves, so it says both that the command completes and what it leaves
unchanged. OBLIGATIONS.json lists them. -/

open Sys2Proof Sys2Proof.Machine

/-! ## The step, start-up (chapter 11) -/

/-- A step runs the command at the front of the queue. That it idles on an empty queue is the model's
choice (log 2). -/
def Obligations.StepRunsFrontCommand : Prop :=
  (∀ (c : Instr) (rest : List Instr) (s : State), s.pending = c :: rest →
    step s = exec c { s with pending := rest })
  ∧ ∀ s : State, s.pending = [] → step s = .next s

/-- HARDWARE_RESET: every block takes its reset value (R1, R60, R81, R93, R105, R111, R131, R145,
R156, R173, R180), the bases run on (R143), and a pending commit is discarded, its target valid exactly
when its marker had been written (R178, R185). The model's choices: the queue of waiting commands stays
(log 6), the status record stands till the load but for its commit (log 9), and the operand says whether
the marker had been written (log 10). -/
def Obligations.HardwareResetTakesResetValues : Prop :=
  ∀ (m : Bool) (s : State), ∃ t, exec (.hardwareReset m) s = .next t
    ∧ t.phase = .held ∧ t.tbValue = 0 ∧ t.usBase = s.usBase ∧ t.pending = s.pending
    ∧ (∀ w : Fin 16, t.windows[w].activity = .idle ∧ t.windows[w].stale = false
        ∧ t.windows[w].inflight = 0 ∧ t.windows[w].deferred = none ∧ t.captures[w] = none
        ∧ ∀ c : Fin 4, (t.stats[w])[c] = ⟨0, 0, none, none⟩)
    ∧ (∀ k : Fin 16, t.monitors[k].side = .unknown ∧ t.monitors[k].count = 0
        ∧ t.monitors[k].record = none)
    ∧ (∀ i : Fin 32, t.entries[i] = none) ∧ t.accCounter = 0 ∧ t.offered = none ∧ t.intake = []
    ∧ (∀ j : Fin 64, t.tags[j] = .free) ∧ t.turn = none ∧ t.fairness = 0 ∧ t.sweep = none
    ∧ t.faults = [] ∧ t.overflow = false ∧ t.alert = false
    ∧ t.rx.state = .hunt ∧ t.rx.bytes = [] ∧ (∀ k : Fin 16, t.slots[k] = .free)
    ∧ t.replyQueue = [] ∧ t.deferred = [] ∧ t.notices = [] ∧ t.lost = 0 ∧ t.tx = .idle
    ∧ t.runCount = 0 ∧ t.counters = ⟨0, 0, 0, 0, 0⟩ ∧ t.breakLow = false
    ∧ t.boot = { s.boot with commit := none }
    ∧ ∀ id : CopyId, t.copy id =
        match s.boot.commit with
        | some p => if m ∧ p.target = id then writtenCopy p.generation p.image else s.copy id
        | none => s.copy id

/-- RESET_END: LRATE is sampled and reading of the boot store begins, both ways in staying closed (R157,
R180). OPENING: the U port and the link open with the receiver in HUNT, and a notice that waits is sent
first (R170, R182); a line that is low is timed from then (R171). That a request sent while the U port
withholds ready changes nothing is the model's choice (log 1). -/
def Obligations.ResetEndAndOpening : Prop :=
  (∀ (rate : LinkRate) (s : State), s.phase = .held →
      exec (.resetEnd rate) s = .next { s with phase := .reading, linkRate := rate }
        ∧ (∀ t, exec (.resetEnd rate) s = .next t →
            t.loadDone = false ∧ t.linkReceives = false ∧ ∀ r, exec (.acceptance r) t = .next t))
  ∧ ∀ s : State, s.phase = .loaded → s.breakLow = false → s.tx = .idle → s.replyQueue = [] →
      let o := { s with
        phase := .serving, rx := { s.rx with state := .hunt, bytes := [] }, rxHighAt := s.usBase }
      (s.notices = [] → exec .opening s = .next o)
      ∧ ∀ (n : Notice) (ns : List Notice), s.notices = n :: ns →
          exec .opening s =
            .next { o with notices := ns, runCount := 0, tx := .sending none (noticePacket n) }

/-- LOAD: the status record and the configuration are those of the active copy, or the defaults; the
statistics of the windows made ENABLED are emptied; the boot fault of R181's table is offered with
the notice queue open, stamped with the timebase value; nothing else differs (R1, R48, R93, R105,
R145, R178, R181). The operands that say which copy was lost are the model's choice (log 10). -/
def Obligations.LoadTakesActiveCopy : Prop :=
  ∀ (lostA lostB : Bool) (s : State), s.phase = .reading →
    let f := withBootFault { s with phase := .loaded } (s.copyA.valid && !lostA)
      (s.copyB.valid && !lostB)
    ∃ t, exec (.load lostA lostB) s = .next t ∧ LoadedFrom s t lostA lostB
      ∧ (∀ w : Fin 16, t.captures[w] = none
          ∧ t.stats[w] = if t.windows[w].state = .enabled then Vector.replicate 4 ⟨0, 0, none, none⟩
              else s.stats[w])
      ∧ t = { s with
          phase := .loaded
          windows := t.windows, stats := t.stats, captures := t.captures, monitors := t.monitors
          tbSource := t.tbSource, tbEdge := t.tbEdge, limit := t.limit, boot := t.boot
          copyA := t.copyA, copyB := t.copyB
          faults := f.faults, overflow := f.overflow, alert := f.alert
          notices := f.notices, lost := f.lost }

/-! ## Acceptance and delivery (chapter 3) -/

/-- ACCEPTANCE of a request that passes R39's checks: it takes the lowest FREE entry as R41 fills it,
with the action of R5's table, and joins the intake queue; the matched window counts one more (R4, R5,
R8, R37, R38, R41). -/
def Obligations.AcceptanceQueuesRequest : Prop :=
  ∀ (s : State) (i : Fin 32) (tag : Fin 16) (addr : Word) (m : Option (Fin 16)),
    Accepts s i → addr.toNat % 4 = 0 → MatchedBy s addr m →
    (∀ n : Nat, 1 ≤ n → n ≤ 16 → addr.toNat % 4096 + 4 * n ≤ 4096 →
      exec (.acceptance ⟨tag, addr, .read n⟩) s =
        .next (queuedAs s i m ⟨.queued, .read, tag, addr, n, s.accCounter, m,
          match (m.map fun w => s.windows[w].defn.mode : Option Mode) with
          | some .present => .condRead
          | _ => .pass,
          none, 0, .okay, List.replicate n 0, []⟩).offerResponse)
    ∧ ∀ ws : List WriteWord, 1 ≤ ws.length → ws.length ≤ 16 →
      addr.toNat % 4096 + 4 * ws.length ≤ 4096 → GuardedBy s addr none →
      (m.isSome → ∀ x ∈ ws, ¬HasTornLane x) →
      exec (.acceptance ⟨tag, addr, .write ws⟩) s =
        .next (queuedAs s i m ⟨.queued, .write, tag, addr, ws.length, s.accCounter, m,
          match (m.map fun w => s.windows[w].defn.mode : Option Mode) with
          | none => .pass
          | some .present => .rawWritePresent
          | some .store => .condWrite
          | some .storeBoth => .condWriteShadow,
          none, 0, .okay, [], ws⟩).offerResponse

/-- ACCEPTANCE of a request that fails R39's checks: the first that fails gives the fault's kind and
window, and the entry is DENIED and READY (R38, R39, R40). -/
def Obligations.AcceptanceDeniesFailedChecks : Prop :=
  ∀ (s : State) (i : Fin 32) (tag : Fin 16) (addr : Word), Accepts s i →
    (∀ n : Nat,
      let denied := fun k => exec (.acceptance ⟨tag, addr, .read n⟩) s =
        .next (deniedAs s i tag addr .read n k none).offerResponse
      (addr.toNat % 4 ≠ 0 → denied .align)
      ∧ (addr.toNat % 4 = 0 → n = 0 ∨ 16 < n → denied .length)
      ∧ (addr.toNat % 4 = 0 → 1 ≤ n → n ≤ 16 → 4096 < addr.toNat % 4096 + 4 * n → denied .boundary))
    ∧ ∀ (ws : List WriteWord) (g m : Option (Fin 16)), GuardedBy s addr g → MatchedBy s addr m →
      let denied := fun k w => exec (.acceptance ⟨tag, addr, .write ws⟩) s =
        .next (deniedAs s i tag addr .write ws.length k w).offerResponse
      let fits := 1 ≤ ws.length ∧ ws.length ≤ 16 ∧ addr.toNat % 4096 + 4 * ws.length ≤ 4096
      (addr.toNat % 4 ≠ 0 → denied .align none)
      ∧ (addr.toNat % 4 = 0 → ws.length = 0 ∨ 16 < ws.length → denied .length none)
      ∧ (addr.toNat % 4 = 0 → 1 ≤ ws.length → ws.length ≤ 16 →
          4096 < addr.toNat % 4096 + 4 * ws.length → denied .boundary none)
      ∧ (addr.toNat % 4 = 0 → fits → g.isSome → denied .guard g)
      ∧ (addr.toNat % 4 = 0 → fits → g = none → m.isSome → (∃ x ∈ ws, HasTornLane x) →
          denied .torn m)

/-- The response arbiter (R57): an empty channel gets an eligible entry than which no eligible entry
is older, and stays empty only when no entry is eligible; a response on offer is not displaced. The
entries' numbers are those of distinct requests accepted less than 2^31 − 1 ago (R38). The response on
offer carries its entry's host tag and worst status; a read's carries its buffer when the status is
OKAY and as many zero words otherwise, and a write's carries no data (R58). -/
def Obligations.ArbiterOffersOldestEligible : Prop :=
  ∀ s : State,
    (∀ i, s.offered = some i → s.offerResponse = s)
    ∧ (s.offered = none → s.offerResponse = { s with offered := s.offerResponse.offered }
      ∧ (∀ i, s.offerResponse.offered = some i → s.eligible i = true
          ∧ ∀ j, s.eligible j = true → s.olderEntry j i = false)
      ∧ ((∀ (i j : Fin 32) (e f : Entry), s.entries[i] = some e → s.entries[j] = some f →
            (s.accCounter - e.num).toNat < 2 ^ 31 - 1 ∧ (e.num = f.num → i = j)) →
          s.offerResponse.offered = none → ∀ i, s.eligible i = false))
    ∧ (∀ i : Fin 32, s.eligible i = true ↔
        ∃ e, s.entries[i] = some e ∧ e.state = .ready ∧ ∀ (j : Fin 32) (f : Entry),
          s.entries[j] = some f → f.hostTag = e.hostTag →
            ¬(1 ≤ (e.num - f.num).toNat ∧ (e.num - f.num).toNat ≤ 2 ^ 31 - 1))
    ∧ (s.offered = none → s.offeredResponse = none)
    ∧ ∀ (i : Fin 32) (e : Entry), s.offered = some i → s.entries[i] = some e →
        (e.kind = .write → s.offeredResponse = some (e.hostTag, e.worst, []))
        ∧ (e.kind = .read → e.worst = .okay → s.offeredResponse = some (e.hostTag, .okay, e.buffer))
        ∧ (e.kind = .read → e.worst ≠ .okay →
            s.offeredResponse = some (e.hostTag, e.worst, List.replicate e.buffer.length 0))

/-- RESPONSE_TAKEN: the entry is FREE and its window counts one fewer; the last delivery of a DRAINING
window makes it DISABLED and queues the OK of its DISABLE; the arbiter chooses again (R8, R20, R57,
R59). -/
def Obligations.ResponseTakenFreesEntry : Prop :=
  ∀ (s : State) (i : Fin 32) (e : Entry), s.offered = some i → s.entries[i] = some e →
    let t := { s with entries := s.entries.set i none, offered := none }
    (e.window = none → exec .responseTaken s = .next t.offerResponse)
    ∧ ∀ w : Fin 16, e.window = some w →
      (s.windows[w].state ≠ .draining ∨ 2 ≤ s.windows[w].inflight →
        exec .responseTaken s = .next { t with
          windows := t.windows.set w
            { t.windows[w] with inflight := t.windows[w].inflight - 1 } }.offerResponse)
      ∧ ∀ d, s.windows[w].state = .draining → s.windows[w].inflight = 1 → Registered s w d →
        exec .responseTaken s = .next (answeredDeferred { t with
          windows := t.windows.set w
            { t.windows[w] with state := .disabled, inflight := 0, deferred := none } }
          d .ok []).offerResponse

/-! ## The engine (chapter 4) -/

/-- The engine arbiter (R65 to R69): R67's table, with the host claim ready when a head entry is not
held by the block in flight and finds enough free tags, and the sweep claim ready when the sweep
presents a turn and a tag is free. -/
def Obligations.EngineGrantFollowsTable : Prop :=
  ∀ s : State,
    (s.turn ≠ none → s.grant = none)
    ∧ (s.turn = none →
        (s.hostReady = true → s.sweepReady = false → s.grant = some .host)
        ∧ (s.hostReady = false → s.sweepReady = true → s.grant = some .sweep)
        ∧ (s.hostReady = true → s.sweepReady = true →
            s.grant = if s.fairness < 8 then some .host else some .sweep)
        ∧ (s.hostReady = false → s.sweepReady = false → s.grant = none))
    ∧ (s.hostReady = true ↔ ∃ i rest e, s.intake = i :: rest ∧ s.entries[i] = some e
        ∧ ¬HeldByBlock s e
        ∧ (if e.action = .condWriteShadow then 2 else 1) ≤ s.tags.toList.countP (· = .free))
    ∧ (s.sweepReady = true ↔ ∃ c, s.sweep = some c
        ∧ (c.phase = .readPending ∨ c.phase = .writePending) ∧ ∃ t : Fin 64, s.tags[t] = .free)

/-- HOST_TURN on a PASS or a COND_READ entry: one tag, one sub-request of the entry's kind, address and
length with its write data as received; a COND_READ takes its window's channel records into the
snapshot (R46, R64, R68, R71, R72, R73). -/
def Obligations.HostTurnPassesAndReads : Prop :=
  ∀ (s : State) (i : Fin 32) (e : Entry) (rest : List (Fin 32)) (t : Fin 64),
    HostGranted s i e rest → LowestFree s t →
    let tags := s.tags.set t (.inUse
      ⟨.host i .main, e.kind, e.addr, e.len, e.window, some e.hostTag, false, none⟩)
    let sub : SubRequest := ⟨t, e.kind, e.addr, e.len, e.writeData⟩
    (e.action = .pass → exec .hostTurn s =
      .next (takenAs s i { e with state := .issued, pending := 1, snapshot := none, writeData := [] }
        rest tags [sub]))
    ∧ ∀ w : Fin 16, e.action = .condRead → e.window = some w → exec .hostTurn s =
      .next (takenAs s i { e with
        state := .issued, pending := 1, snapshot := some s.windows[w].chans, writeData := [] }
        rest tags [sub])

/-- HOST_TURN on a COND_WRITE or a RAW_WRITE_PRESENT entry: one write of the conditioned data, or of the
data as received. On a COND_WRITE_SHADOW entry: the conditioned write with the lower tag, then the raw
copy at the same offset of the shadow range with the higher, in one turn. In each case the samples are
handed on in sample order (R6, R33, R46, R71, R74, R75, R76, R77). -/
def Obligations.HostTurnConditionsWrites : Prop :=
  (∀ (s : State) (i : Fin 32) (e : Entry) (rest : List (Fin 32)) (t : Fin 64) (w : Fin 16),
      HostGranted s i e rest → LowestFree s t → e.window = some w →
      let x := s.windows[w]
      let tags := s.tags.set t (.inUse
        ⟨.host i .main, e.kind, e.addr, e.len, some w, some e.hostTag, false, none⟩)
      let e' := { e with state := .issued, pending := 1, snapshot := none, writeData := [] }
      let samples := burstSamples x.defn x.chans e.addr.toNat e.writeData
      (e.action = .condWrite → exec .hostTurn s =
        .next ((takenAs s i e' rest tags [⟨t, e.kind, e.addr, e.len,
          conditionBurst x.defn x.chans e.addr.toNat e.writeData⟩]).handSamples w samples))
      ∧ (e.action = .rawWritePresent → exec .hostTurn s =
        .next ((takenAs s i e' rest tags [⟨t, e.kind, e.addr, e.len, e.writeData⟩]).handSamples w
          samples)))
  ∧ ∀ (s : State) (i : Fin 32) (e : Entry) (rest : List (Fin 32)) (t u : Fin 64) (w : Fin 16)
      (b : Word), HostGranted s i e rest → LowestTwoFree s t u → e.window = some w →
      e.action = .condWriteShadow → s.windows[w].defn.shadow = some b →
      let x := s.windows[w]
      let a := b + (e.addr - x.defn.base)
      exec .hostTurn s =
        .next ((takenAs s i { e with state := .issued, pending := 2, snapshot := none, writeData := [] }
          rest
          ((s.tags.set t (.inUse
              ⟨.host i .main, e.kind, e.addr, e.len, some w, some e.hostTag, false, none⟩)).set u
            (.inUse ⟨.host i .shadow, .write, a, e.len, some w, some e.hostTag, false, none⟩))
          [⟨t, e.kind, e.addr, e.len, conditionBurst x.defn x.chans e.addr.toNat e.writeData⟩,
            ⟨u, .write, a, e.len, e.writeData⟩]).handSamples w
          (burstSamples x.defn x.chans e.addr.toNat e.writeData))

/-- SWEEP_READ_TURN and SWEEP_WRITE_TURN: the lowest free tag becomes current, the turn holds the read
of the shadow block or the write of the conditioned block with every enable set, and the fairness count
is 0 (R68, R78, R116, R118). -/
def Obligations.SweepTurnsTakeTheirBlock : Prop :=
  ∀ (s : State) (c : Sweep) (t : Fin 64), s.grant = some .sweep → s.sweep = some c →
    LowestFree s t →
    let x := s.windows[c.window]
    (∀ b : Word, c.phase = .readPending → x.defn.shadow = some b →
      let a := BitVec.ofNat 32 (b.toNat + (c.cursor - x.defn.base.toNat))
      exec .sweepReadTurn s = .next { s with
        tags := s.tags.set t (.inUse ⟨.sweep .read, .read, a, 16, some c.window, none, false, none⟩)
        fairness := 0
        turn := some ⟨.sweep .read, [⟨t, .read, a, 16, []⟩]⟩
        sweep := some { c with tag := some t, phase := .readIssuing, block := none } })
    ∧ (∀ ws : List Word, c.phase = .writePending → c.block = some ws →
      let a := BitVec.ofNat 32 c.cursor
      exec .sweepWriteTurn s = .next { s with
        tags := s.tags.set t (.inUse
          ⟨.sweep .write, .write, a, 16, some c.window, none, false, none⟩)
        fairness := 0
        turn := some ⟨.sweep .write,
          [⟨t, .write, a, 16, conditionBurst x.defn x.chans c.cursor (ws.map fun v => ⟨v, 15⟩)⟩]⟩
        sweep := some { c with tag := some t, phase := .writeIssuing, block := none } })

/-! ## The D port and the read path (chapters 3, 5) -/

/-- SUB_REQUEST_ISSUE: the waiting sub-request leaves the turn, its tag is issued, with a deadline
limit µs from now unless the limit is 0, and a sweep whose current tag it is moves on (R44, R47, R48,
R64, R116, R118). -/
def Obligations.IssueSetsDeadline : Prop :=
  ∀ (s : State) (src : TurnSource) (q : SubRequest) (rest : List SubRequest) (r : TagRecord),
    s.turn = some ⟨src, q :: rest⟩ → s.tags[q.tag] = .inUse r →
    exec .subRequestIssue s = .next { s with
      turn := if rest = [] then none else some ⟨src, rest⟩
      tags := s.tags.set q.tag (.inUse { r with
        issued := true
        deadline := if s.limit = 0 then none else some (s.usBase + s.limit.toNat) })
      sweep := s.sweep.map fun c =>
        if c.tag = some q.tag ∧ c.phase = .readIssuing then { c with phase := .readOut }
        else if c.tag = some q.tag ∧ c.phase = .writeIssuing then { c with phase := .writeOut }
        else c }

/-- MEMORY_RESPONSE OKAY for a host read: the tag is free, the entry is READY, and its buffer holds the
words in place, missing ones zero and extra ones discarded; for a COND_READ each word placed is
conditioned whole, with the snapshot (R50, R55, R56, R82, R83, R84, R85). -/
def Obligations.ReadAnswerFillsBuffer : Prop :=
  ∀ (s : State) (t : Fin 64) (r : TagRecord) (i : Fin 32) (role : HostRole) (e : Entry)
    (ws : List Word), s.phase ≠ .held → s.tags[t] = .inUse r → r.issued = true →
    r.owner = .host i role → r.kind = .read → s.entries[i] = some e → e.pending = 1 →
    e.worst = .okay →
    let answer := fun buffer => exec (.memoryResponse t .okay ws) s =
      .next { s with
        tags := s.tags.set t .free
        entries := s.entries.set i
          (some { e with state := .ready, pending := 0, buffer := buffer }) }.offerResponse
    (e.action = .pass →
      answer (ws.take e.len ++ List.replicate (e.len - ws.length) 0))
    ∧ ∀ (w : Fin 16) (chans : List ChanRec), e.action = .condRead → e.window = some w →
        e.snapshot = some chans →
        answer ((conditionBurst s.windows[w].defn chans e.addr.toNat
            ((ws.take e.len).map fun v => ⟨v, 15⟩)).map WriteWord.data
          ++ List.replicate (e.len - ws.length) 0)

/-- MEMORY_RESPONSE for a host write, or ERROR for a host read: the tag is free, the pending count
falls, the worst status is combined (MEMERR leaves EXPIRED as it is), the entry is READY at 0, an ERROR
offers its fault, and an ERROR of a COND_WRITE_SHADOW entry sets its window's stale flag and marks a
sweep of it (R10, R49, R50, R55, R56, R122). -/
def Obligations.WriteAnswerCombinesStatus : Prop :=
  ∀ (s : State) (t : Fin 64) (r : TagRecord) (i : Fin 32) (role : HostRole) (e : Entry)
    (ws : List Word), s.phase ≠ .held → s.tags[t] = .inUse r → r.issued = true →
    r.owner = .host i role → s.entries[i] = some e →
    let u := { s with tags := s.tags.set t .free }
    let state := if e.pending = 1 then EntryState.ready else e.state
    (2 ≤ e.pending ∨ e.pending = 1) →
    (r.kind = .write → exec (.memoryResponse t .okay ws) s =
      .next { u with
        entries := u.entries.set i
          (some { e with state := state, pending := e.pending - 1 }) }.offerResponse)
    ∧ (let f := u.offerFault
          ⟨if r.kind = .read then .memerrRead else .memerrWrite, .host, r.window, some r.addr, r.hostTag⟩
        let worst := if e.worst = .okay then HostStatus.memerr else e.worst
        let g := { f with
          entries := f.entries.set i
            (some { e with state := state, pending := e.pending - 1, worst := worst }) }
        (e.action ≠ .condWriteShadow ∨ e.window = none →
          exec (.memoryResponse t .error ws) s = .next g.offerResponse)
        ∧ ∀ w : Fin 16, e.action = .condWriteShadow → e.window = some w →
          exec (.memoryResponse t .error ws) s = .next { g with
            windows := g.windows.set w { g.windows[w] with stale := true }
            sweep := g.sweep.map fun (c : Sweep) => if c.window = w then { c with restaled := true } else c
          }.offerResponse)

/-- MEMORY_RESPONSE for a quarantined tag frees it and offers LATE with the record's fields; for a free
tag or one not yet issued it offers STRAY; no entry and no sweep changes (R51, R52). -/
def Obligations.LateAndStrayResponses : Prop :=
  ∀ (s : State) (t : Fin 64) (st : MemStatus) (ws : List Word), s.phase ≠ .held →
    (∀ r : TagRecord, s.tags[t] = .quarantined r →
      exec (.memoryResponse t st ws) s =
        .next ({ s with tags := s.tags.set t .free }.offerFault
          ⟨.late, match r.owner with
            | .host _ _ => .host
            | .sweep _ => .sweep, r.window, some r.addr, r.hostTag⟩))
    ∧ (s.tags[t] = .free ∨ (∃ r, s.tags[t] = .inUse r ∧ r.issued = false) →
      exec (.memoryResponse t st ws) s =
        .next (s.offerFault ⟨.stray, .host, none, none, none⟩))

/-- EXPIRY of an issued tag at or after its deadline: the tag is quarantined with its record, and an
EXPIRED fault is offered. A HOST tag's entry combines EXPIRED and is READY at 0; a COND_WRITE_SHADOW
entry's sets its window's stale flag and marks a sweep of it. A sweep's current tag ends the sweep
FAILED, or ABORTED when it is stopping; a SWEEP tag that is not current changes no sweep (R10, R53, R55,
R56, R120, R122, R123, R126). In a run a deadline passes so inside the TIMEBASE_INCREMENT that reaches it
(TimebaseCountsAndIsSet); that the row has the same effect where a deadline reached still stands, a state
that no run comes to, is the model's choice (log 5). -/
def Obligations.ExpiryQuarantinesTag : Prop :=
  ∀ (s : State) (t : Fin 64) (r : TagRecord) (dl : Nat), s.tags[t] = .inUse r → r.issued = true →
    r.deadline = some dl → dl ≤ s.usBase →
    let u := { s with tags := s.tags.set t (.quarantined r) }
    let run := exec (.expiry t) s
    (∀ (i : Fin 32) (role : HostRole) (e : Entry), r.owner = .host i role → s.entries[i] = some e →
      1 ≤ e.pending →
      let f := u.offerFault ⟨.expired, .host, r.window, some r.addr, r.hostTag⟩
      let g := { f with
        entries := f.entries.set i (some { e with
          state := if e.pending = 1 then EntryState.ready else e.state
          pending := e.pending - 1
          worst := if e.worst = HostStatus.denied then HostStatus.denied else .expired }) }
      (e.action ≠ .condWriteShadow ∨ e.window = none → run = .next g.offerResponse)
      ∧ ∀ w : Fin 16, e.action = .condWriteShadow → e.window = some w →
        run = .next { g with
          windows := g.windows.set w { g.windows[w] with stale := true }
          sweep := g.sweep.map fun (c : Sweep) => if c.window = w then { c with restaled := true } else c
        }.offerResponse)
    ∧ ∀ k : ReqKind, r.owner = .sweep k →
      let f := u.offerFault ⟨.expired, .sweep, r.window, some r.addr, r.hostTag⟩
      (s.sweep = none → run = .next f.offerResponse)
      ∧ ∀ c : Sweep, s.sweep = some c →
        (c.tag ≠ some t → run = .next f.offerResponse)
        ∧ ∀ d : DeferredEntry, c.tag = some t → c.cursor < 2 ^ 32 → Registered s c.window d →
          let ended := { f with
            windows := f.windows.set c.window
              { f.windows[c.window] with activity := .idle, deferred := none }
            sweep := none, fairness := 0 }
          (c.phase = .readOut → c.stopping = false → run = .next (answeredDeferred ended d .failed
            (u32 c.cursor ++ u32 c.done ++ [0, 1])).offerResponse)
          ∧ (c.phase = .writeOut → c.stopping = false → run = .next (answeredDeferred ended d .failed
            (u32 c.cursor ++ u32 c.done ++ [1, 1])).offerResponse)
          ∧ (c.phase = .writeOut → c.stopping = true → run = .next (answeredDeferred ended d .aborted
            (u32 c.cursor ++ u32 c.done)).offerResponse)

/-! ## Sweeps (chapter 7) -/

/-- SWEEP: R113's checks in order, and the context that R114 fills. -/
def Obligations.SweepFillsContext : Prop :=
  ∀ (s : State) (w : Fin 16) (trn : Byte) (k : Fin 16) (start count : Half), LinkTakes s trn k →
    let x := s.windows[w]
    let refused := fun st => exec (.sweep w trn start count) s =
      .next (replied s k (windowUnit w) trn st [])
    let other := ∃ v : Fin 16, v ≠ w ∧ s.windows[v].activity = .sweeping
    let inRange := start.toNat < x.defn.pages
      ∧ (count = 0 ∨ start.toNat + count.toNat ≤ x.defn.pages)
    let base := x.defn.base.toNat
    let stop := if count = 0 then base + x.defn.pages * 4096
      else base + (start.toNat + count.toNat) * 4096
    (x.state ≠ .enabled → refused .wrongState)
    ∧ (x.state = .enabled → x.activity ≠ .idle → refused .busy)
    ∧ (x.state = .enabled → x.activity = .idle →
        (x.defn.mode ≠ .storeBoth → refused .wrongState)
        ∧ (x.defn.mode = .storeBoth → other → refused .busy)
        ∧ (x.defn.mode = .storeBoth → ¬other → ¬inRange → refused .badValue)
        ∧ (x.defn.mode = .storeBoth → ¬other → inRange →
            exec (.sweep w trn start count) s = .next (registered { s with
              windows := s.windows.set w
                { x with activity := .sweeping, deferred := some ⟨trn, .sweep⟩ }
              sweep := some ⟨w, base + start.toNat * 4096, stop,
                start = 0 ∧ stop = base + x.defn.pages * 4096, base + start.toNat * 4096, 0,
                .readPending, none, none, false, false⟩ } k (windowUnit w) trn 0x06)))

/-- MEMORY_RESPONSE OKAY for the current tag of a sweep that is not stopping: a read fills the block
data; a write counts the block, and goes on to the next block or completes the sweep with OK, clearing
stale when the sweep is of the whole window and not restaled (R50, R117, R119, R121). -/
def Obligations.SweepAnswersAdvance : Prop :=
  ∀ (s : State) (t : Fin 64) (r : TagRecord) (k : ReqKind) (c : Sweep) (ws : List Word),
    s.phase ≠ .held → s.tags[t] = .inUse r → r.issued = true → r.owner = .sweep k →
    s.sweep = some c → c.tag = some t →
    let u := { s with tags := s.tags.set t .free }
    let answer := exec (.memoryResponse t .okay ws) s
    let x := s.windows[c.window]
    (c.phase = .readOut → answer = .next { u with sweep := some { c with
      block := some (ws.take 16 ++ List.replicate (16 - ws.length) 0)
      tag := none, phase := .writePending } }.offerResponse)
    ∧ (c.phase = .writeOut → c.stopping = false →
      (c.cursor + 64 < c.stop → answer = .next { u with sweep := some { c with
        done := c.done + 1, cursor := c.cursor + 64, tag := none, phase := .readPending }
        }.offerResponse)
      ∧ ∀ d, c.stop ≤ c.cursor + 64 → Registered s c.window d →
        answer = .next (answeredDeferred { u with
          windows := u.windows.set c.window { x with
            activity := .idle, deferred := none
            stale := if c.whole = true ∧ c.restaled = false then false else x.stale }
          sweep := none, fairness := 0 } d .ok (u32 (c.done + 1))).offerResponse)

/-- MEMORY_RESPONSE ERROR for the current tag of a sweep fails it with FAILED; any answer to the write
of a stopping sweep ends it with ABORTED, an OKAY one having counted the block; an answer of a tag
that is not current, or to no sweep, changes no sweep (R49, R50, R120, R123, R126). -/
def Obligations.SweepAnswersEndSweep : Prop :=
  ∀ (s : State) (t : Fin 64) (r : TagRecord) (k : ReqKind) (st : MemStatus) (ws : List Word),
    s.phase ≠ .held → s.tags[t] = .inUse r → r.issued = true → r.owner = .sweep k →
    let u := { s with tags := s.tags.set t .free }
    let f := if st = .okay then u else u.offerFault
      ⟨if r.kind = .read then .memerrRead else .memerrWrite, .sweep, r.window, some r.addr, r.hostTag⟩
    let answer := exec (.memoryResponse t st ws) s
    (∀ c, s.sweep = some c → c.tag ≠ some t → answer = .next f.offerResponse)
    ∧ (s.sweep = none → answer = .next f.offerResponse)
    ∧ ∀ (c : Sweep) (d : DeferredEntry), s.sweep = some c → c.tag = some t →
      Registered s c.window d →
      let ended := { f with
        windows := f.windows.set c.window
          { f.windows[c.window] with activity := .idle, deferred := none }
        sweep := none, fairness := 0 }
      (st = .error → c.stopping = false → c.cursor < 2 ^ 32 →
        (c.phase = .readOut → answer = .next (answeredDeferred ended d .failed
          (u32 c.cursor ++ u32 c.done ++ [0, 0])).offerResponse)
        ∧ (c.phase = .writeOut → answer = .next (answeredDeferred ended d .failed
          (u32 c.cursor ++ u32 c.done ++ [1, 0])).offerResponse))
      ∧ (c.phase = .writeOut → c.stopping = true → c.cursor + 64 < 2 ^ 32 →
        answer = .next (answeredDeferred ended d .aborted
          (if st = .okay then u32 (c.cursor + 64) ++ u32 (c.done + 1)
            else u32 c.cursor ++ u32 c.done)).offerResponse)

/-- ABORT: WRONG_STATE off a busy window; on a SWEEPING window the OK is queued first, and the sweep
stops at once with ABORTED while its write is not produced, or is marked stopping; on a ZEROING window
the capture stops at once with ABORTED and its count (R12, R124, R125, R126, R140). -/
def Obligations.AbortStopsSweepOrCapture : Prop :=
  ∀ (s : State) (w : Fin 16) (trn : Byte) (k : Fin 16), LinkTakes s trn k →
    let x := s.windows[w]
    let ok := replied s k (windowUnit w) trn .ok []
    let idle := ok.windows.set w { x with activity := .idle, deferred := none }
    (x.state ≠ .enabled ∨ x.activity = .idle → exec (.abort w trn) s =
      .next (replied s k (windowUnit w) trn .wrongState []))
    ∧ (∀ (c : Sweep) (d : DeferredEntry), x.state = .enabled → x.activity = .sweeping →
        s.sweep = some c → c.window = w → c.cursor < 2 ^ 32 → Registered s w d →
        (c.phase ≠ .writeIssuing → c.phase ≠ .writeOut → exec (.abort w trn) s =
          .next (answeredDeferred { ok with windows := idle, sweep := none, fairness := 0 } d .aborted
            (u32 c.cursor ++ u32 c.done)))
        ∧ (c.phase = .writeIssuing ∨ c.phase = .writeOut → exec (.abort w trn) s =
          .next { ok with sweep := some { c with stopping := true } }))
    ∧ ∀ (c : Capture) (d : DeferredEntry), x.state = .enabled → x.activity = .zeroing →
        s.captures[w] = some c → Registered s w d → exec (.abort w trn) s =
          .next (answeredDeferred { ok with windows := idle, captures := ok.captures.set w none } d
            .aborted (u16 c.count))

/-! ## Windows (chapter 1) -/

/-- DEFINE: WRONG_STATE off a DISABLED window; BAD_VALUE when a condition of R13 fails; else the
definition is replaced and the channel records resized, a record that both counts cover being kept and
the others default (R12, R13, R14, R190). That bits 1 to 7 of the flags byte are ignored is the model's
choice (log 21). -/
def Obligations.DefineReplacesDefinition : Prop :=
  ∀ (s : State) (w : Fin 16) (trn : Byte) (k : Fin 16) (base : Word) (pages : Half)
    (mode format count flags : Byte) (shadow : Word), LinkTakes s trn k →
    let x := s.windows[w]
    let present := flags.getLsbD 0
    let span := pages.toNat * 4096
    let good := base.toNat % 4096 = 0 ∧ 1 ≤ pages.toNat ∧ pages.toNat ≤ 4096
      ∧ base.toNat + span ≤ 2 ^ 32 ∧ mode.toNat ≤ 2 ∧ format.toNat ≤ 4
      ∧ (count = 1 ∨ count = 2 ∨ count = 4) ∧ (present = true ↔ mode = 2)
      ∧ (present = true → shadow.toNat % 4096 = 0 ∧ shadow.toNat + span ≤ 2 ^ 32
          ∧ (shadow.toNat + span ≤ base.toNat ∨ base.toNat + span ≤ shadow.toNat))
    let run := exec (.define w trn base pages mode format count flags shadow) s
    let refused := fun st => run = .next (replied s k (windowUnit w) trn st [])
    (x.state ≠ .disabled → refused .wrongState)
    ∧ (x.state = .disabled → ¬good → refused .badValue)
    ∧ (x.state = .disabled → good → ∃ (d : WindowDef) (chans : List ChanRec),
        d.base = base ∧ d.pages = pages.toNat ∧ d.mode.code = mode ∧ d.format.code = format
        ∧ d.count = count.toNat ∧ d.shadow = (if present then some shadow else none)
        ∧ chans.length = max d.count (min x.chans.length d.count)
        ∧ (∀ j, j < d.count → chans[j]? = some (x.chans.getD j ⟨16384, 0, 0x8000, 0x7FFF⟩))
        ∧ run = .next (replied
            { s with windows := s.windows.set w { x with defn := d, chans := chans } }
            k (windowUnit w) trn .ok []))

/-- SET_CHANNEL: BUSY on a busy or DRAINING window; BAD_VALUE for a channel at or above the count or
clamps in the wrong order; else the record is replaced, and an ENABLED STORE_BOTH window becomes stale
(R10, R12, R15). -/
def Obligations.SetChannelReplacesRecord : Prop :=
  ∀ (s : State) (w : Fin 16) (trn : Byte) (k : Fin 16) (channel : Byte) (g o l h : Half),
    LinkTakes s trn k →
    let x := s.windows[w]
    let run := exec (.setChannel w trn channel g o l h) s
    let refused := fun st => run = .next (replied s k (windowUnit w) trn st [])
    let open_ := x.state = .disabled ∨ x.state = .enabled ∧ x.activity = .idle
    let good := channel.toNat < x.defn.count ∧ l.toInt ≤ h.toInt
    let chans := x.chans.set channel.toNat ⟨g, o, l, h⟩
    (¬open_ → refused .busy) ∧ (open_ → ¬good → refused .badValue)
    ∧ (open_ → good → ¬(x.state = .enabled ∧ x.defn.mode = .storeBoth) → run = .next (replied
        { s with windows := s.windows.set w { x with chans := chans } } k (windowUnit w) trn .ok []))
    ∧ (open_ → good → x.state = .enabled → x.defn.mode = .storeBoth → run = .next (replied
        { s with
          windows := s.windows.set w { x with chans := chans, stale := true }
          sweep := s.sweep.map fun c => if c.window = w then { c with restaled := true } else c }
        k (windowUnit w) trn .ok []))

/-- ENABLE: WRONG_STATE off a DISABLED window; OVERLAP when a range meets one of another window in
service; BUSY for an unmatched write not yet READY, or a quarantined write, inside the ranges; else the
window is ENABLED and not stale, its statistics are empty and its monitors' sides UNKNOWN (R9, R12, R17,
R18, R100). -/
def Obligations.EnableChecksConflictAndTraffic : Prop :=
  ∀ (s : State) (w : Fin 16) (trn : Byte) (k : Fin 16), LinkTakes s trn k →
    let x := s.windows[w]
    let refused := fun st => exec (.enable w trn) s =
      .next (replied s k (windowUnit w) trn st [])
    let covers := fun (d : WindowDef) (a : Nat) =>
      (d.base.toNat ≤ a ∧ a < d.base.toNat + d.pages * 4096)
      ∨ d.mode = .storeBoth ∧ ∃ b, d.shadow = some b ∧ b.toNat ≤ a ∧ a < b.toNat + d.pages * 4096
    let conflict := ∃ (v : Fin 16) (a : Nat), v ≠ w ∧ s.windows[v].state ≠ .disabled
      ∧ covers x.defn a ∧ covers s.windows[v].defn a
    let unsettled := (∃ (i : Fin 32) (e : Entry), s.entries[i] = some e ∧ e.state ≠ .ready
        ∧ e.window = none ∧ e.kind = .write ∧ covers x.defn e.addr.toNat)
      ∨ ∃ (t : Fin 64) (r : TagRecord), s.tags[t] = .quarantined r ∧ r.kind = .write
        ∧ covers x.defn r.addr.toNat
    (x.state ≠ .disabled → refused .wrongState)
    ∧ (x.state = .disabled → conflict → refused .overlap)
    ∧ (x.state = .disabled → ¬conflict → unsettled → refused .busy)
    ∧ (x.state = .disabled → ¬conflict → ¬unsettled → exec (.enable w trn) s = .next (replied
        { s with
          windows := s.windows.set w { x with state := .enabled, stale := false }
          stats := s.stats.set w (Vector.replicate 4 ⟨0, 0, none, none⟩)
          monitors := s.monitors.map fun m =>
            if m.bind.any (·.window = w) then { m with side := .unknown } else m }
        k (windowUnit w) trn .ok []))

/-- DISABLE: BUSY on a busy window, WRONG_STATE on a DISABLED or DRAINING one; else the bound monitors
take side UNKNOWN, and the window is DISABLED with OK at once, or DRAINING with a deferred DISABLE when
requests are in flight (R11, R12, R19, R100). -/
def Obligations.DisableDrainsOrEnds : Prop :=
  ∀ (s : State) (w : Fin 16) (trn : Byte) (k : Fin 16), LinkTakes s trn k →
    let x := s.windows[w]
    let run := exec (.disable w trn) s
    let unknown := s.monitors.map fun m =>
      if m.bind.any (·.window = w) then { m with side := .unknown } else m
    (x.state ≠ .enabled → run = .next (replied s k (windowUnit w) trn .wrongState []))
    ∧ (x.state = .enabled → x.activity ≠ .idle →
        run = .next (replied s k (windowUnit w) trn .busy []))
    ∧ (x.state = .enabled → x.activity = .idle → x.inflight = 0 → run = .next (replied
        { s with windows := s.windows.set w { x with state := .disabled }, monitors := unknown }
        k (windowUnit w) trn .ok []))
    ∧ (x.state = .enabled → x.activity = .idle → 1 ≤ x.inflight → run = .next (registered
        { s with
          windows := s.windows.set w
            { x with state := .draining, deferred := some ⟨trn, .disable⟩ }
          monitors := unknown }
        k (windowUnit w) trn 0x04))

/-- QUERY: BAD_VALUE for a channel index of 4 or more; else OK with 39 bytes, each field at its offset
of R195, and no state changed (R12, R21, R190, R191, R195). -/
def Obligations.QueryReportsWindow : Prop :=
  ∀ (s : State) (w : Fin 16) (trn : Byte) (k : Fin 16) (channel : Byte), LinkTakes s trn k →
    let x := s.windows[w]
    let run := exec (.query w trn channel) s
    (4 ≤ channel.toNat → run = .next (replied s k (windowUnit w) trn .badValue []))
    ∧ (channel.toNat < 4 → ∃ p : List Byte, run = .next (replied s k (windowUnit w) trn .ok p)
        ∧ p.length = 39
        ∧ wordAt p 0 = x.defn.base ∧ halfAt p 4 = BitVec.ofNat 16 x.defn.pages
        ∧ byteAt p 6 = x.defn.mode.code ∧ byteAt p 7 = x.defn.format.code
        ∧ byteAt p 8 = BitVec.ofNat 8 x.defn.count ∧ wordAt p 9 = x.defn.shadow.getD 0
        ∧ byteAt p 13 = x.state.code ∧ byteAt p 14 = x.activity.code
        ∧ (byteAt p 15).getLsbD 0 = x.defn.shadow.isSome ∧ (byteAt p 15).getLsbD 1 = x.stale
        ∧ (byteAt p 15).getLsbD 2 = x.deferred.isSome
        ∧ byteAt p 16 = (match x.deferred with
            | some d => d.kind.code
            | none => 0)
        ∧ byteAt p 17 = BitVec.ofNat 8 x.inflight ∧ byteAt p 18 = channel
        ∧ (∀ r, channel.toNat < x.defn.count → x.chans[channel.toNat]? = some r →
            (byteAt p 15).getLsbD 3 = true ∧ halfAt p 19 = r.gain ∧ halfAt p 21 = r.offset
            ∧ halfAt p 23 = r.low ∧ halfAt p 25 = r.high)
        ∧ (x.defn.count ≤ channel.toNat → (byteAt p 15).getLsbD 3 = false
            ∧ wordAt p 19 = 0 ∧ wordAt p 23 = 0)
        ∧ (∀ c, x.activity = .sweeping → s.sweep = some c → c.cursor < 2 ^ 32 →
            (byteAt p 15).getLsbD 4 = true ∧ wordAt p 27 = BitVec.ofNat 32 c.cursor
            ∧ wordAt p 31 = BitVec.ofNat 32 c.done)
        ∧ (x.activity ≠ .sweeping → (byteAt p 15).getLsbD 4 = false
            ∧ wordAt p 27 = 0 ∧ wordAt p 31 = 0)
        ∧ (∀ c, x.activity = .zeroing → s.captures[w] = some c → (byteAt p 15).getLsbD 5 = true
            ∧ halfAt p 35 = BitVec.ofNat 16 c.count ∧ halfAt p 37 = BitVec.ofNat 16 (2 ^ c.n))
        ∧ (x.activity ≠ .zeroing → (byteAt p 15).getLsbD 5 = false ∧ wordAt p 35 = 0))

/-! ## Statistics, monitors and zero capture (chapters 6, 8) -/

/-- READ_STATS: BAD_VALUE for a slot of 4 or more; else OK with the slot's record, emptied afterwards
when the clear flag is set (R12, R107, R195). That bits 1 to 7 of the flags byte are ignored is the
model's choice (log 21), and so is that those of the reply's flags byte are zero (log 22). -/
def Obligations.ReadStatsReportsAndClears : Prop :=
  ∀ (s : State) (w : Fin 16) (trn : Byte) (k : Fin 16) (slot flags : Byte), LinkTakes s trn k →
    let run := exec (.readStats w trn slot flags) s
    (4 ≤ slot.toNat → run = .next (replied s k (windowUnit w) trn .badValue []))
    ∧ ∀ c : Fin 4, slot.toNat = c.val →
        let r := (s.stats[w])[c]
        ∃ p : List Byte, p.length = 14 ∧ byteAt p 0 = slot
          ∧ wordAt p 2 = BitVec.ofNat 32 r.samples ∧ wordAt p 6 = BitVec.ofNat 32 r.clipped
          ∧ (∀ lo hi, r.min = some lo → r.max = some hi → byteAt p 1 = 1
              ∧ halfAt p 10 = BitVec.ofInt 16 lo ∧ halfAt p 12 = BitVec.ofInt 16 hi)
          ∧ (r.min = none → r.max = none → byteAt p 1 = 0 ∧ wordAt p 10 = 0)
          ∧ run = .next (replied
              (if flags.getLsbD 0 then
                { s with stats := s.stats.set w ((s.stats[w]).set c ⟨0, 0, none, none⟩) } else s)
              k (windowUnit w) trn .ok p)

/-- A sample handed on (R77): its channel's statistics count it, saturating (R106); while the window is
ENABLED the monitors meet it in ascending index (R95, R96), and an ARMED one of its channel classifies
it and records a watched crossing with its notice (R97 to R99), other monitors being untouched; then it
reaches the window's capture. A burst's samples are handed on in order, each with the timebase value at
the take. -/
def Obligations.SampleReachesStatsAndMonitors : Prop :=
  (∀ (s : State) (w : Fin 16) (x : Sample) (c : Fin 4) (stamp : Word), x.channel = c.val →
    (∃ r : Stats, s.countSample w x = { s with stats := s.stats.set w ((s.stats[w]).set c r) }
      ∧ r.samples = (if (s.stats[w])[c].samples < 4294967295 then (s.stats[w])[c].samples + 1
          else (s.stats[w])[c].samples)
      ∧ ((s.stats[w])[c].samples = 0 → r.min = some x.result.y ∧ r.max = some x.result.y)
      ∧ (∀ lo hi, (s.stats[w])[c].samples ≠ 0 → (s.stats[w])[c].min = some lo →
          (s.stats[w])[c].max = some hi →
          r.min = some (min lo x.result.y) ∧ r.max = some (max hi x.result.y))
      ∧ (x.result.clipped = false → r.clipped = (s.stats[w])[c].clipped)
      ∧ (x.result.clipped = true → r.clipped = if (s.stats[w])[c].clipped < 4294967295
          then (s.stats[w])[c].clipped + 1 else (s.stats[w])[c].clipped))
    ∧ (s.windows[w].state ≠ .enabled → s.watch w stamp x = s)
    ∧ (s.windows[w].state = .enabled → s.watch w stamp x =
        (List.finRange 16).foldl (fun t k => t.watchSample w stamp x k) s)
    ∧ (∀ k : Fin 16, s.monitors[k].bind = none → s.watchSample w stamp x k = s)
    ∧ (∀ (k : Fin 16) (b : MonBind), s.monitors[k].bind = some b →
      let m := s.monitors[k]
      (m.state ≠ .armed ∨ b.window ≠ w ∨ b.channel ≠ x.channel → s.watchSample w stamp x k = s)
      ∧ (m.state = .armed → b.window = w → b.channel = x.channel →
        ∀ (side : Side) (crossing : Option Edge),
          classify m.side b.level.toInt b.hysteresis x.result.y = (side, crossing) →
          ((∀ e, crossing = some e → b.direction.watches e = false) →
            s.watchSample w stamp x k =
              { s with monitors := s.monitors.set k { m with side := side } })
          ∧ ∀ e, crossing = some e → b.direction.watches e = true →
            let n := if m.count < 65535 then m.count + 1 else m.count
            s.watchSample w stamp x k =
              { s with
                monitors := s.monitors.set k ⟨if b.mode = MonMode.oneShot then .tripped else .armed,
                  some b, side, n, some ⟨e, x.result.y, x.addr, stamp⟩⟩ }.offerNotice
                (.crossing k b.window b.channel n ⟨e, x.result.y, x.addr, stamp⟩)))
    ∧ s.handSample w stamp x = ((s.countSample w x).watch w stamp x).accumulate w x)
  ∧ ∀ (s : State) (w : Fin 16), s.handSamples w [] = s
    ∧ ∀ (x : Sample) (xs : List Sample),
      s.handSamples w (x :: xs) = (s.handSample w s.tbValue x).handSamples w xs
        ∧ (s.handSample w s.tbValue x).tbValue = s.tbValue

/-- R97's table: a value at or above the level is ABOVE, one below level − hysteresis falls from ABOVE,
one below the level is BELOW otherwise, and only a change from a known side is a crossing. -/
def Obligations.ClassifyFollowsTable : Prop :=
  ∀ (level y : Int) (h : Nat),
    (level ≤ y → classify .unknown level h y = (.above, none)
      ∧ classify .below level h y = (.above, some .rising))
    ∧ (y < level → classify .unknown level h y = (.below, none)
      ∧ classify .below level h y = (.below, none))
    ∧ (y < level - h → classify .above level h y = (.below, some .falling))
    ∧ (level - h ≤ y → classify .above level h y = (.above, none))
    ∧ (Direction.watches .both .rising = true ∧ Direction.watches .both .falling = true
      ∧ Direction.watches .rising .rising = true ∧ Direction.watches .rising .falling = false
      ∧ Direction.watches .falling .falling = true ∧ Direction.watches .falling .rising = false)

/-- Zero capture's accumulation (R134, R135, R136): a sample of the capture's channel adds its pre-clamp
value; the one that fills the count replaces the offset by the offset minus the rounded mean, limited to
16 bits, marks a STORE_BOTH window stale, and answers OK with the old offset, the new one and the mean;
any other sample changes nothing. -/
def Obligations.CaptureAccumulatesAndCompletes : Prop :=
  ∀ (s : State) (w : Fin 16) (x : Sample),
    (s.captures[w] = none → s.accumulate w x = s)
    ∧ ∀ (c : Capture) (r : ChanRec), s.captures[w] = some c →
      let v := s.windows[w]
      (x.channel ≠ c.channel ∨ 2 ^ c.n ≤ c.count → s.accumulate w x = s)
      ∧ (x.channel = c.channel → c.count + 1 < 2 ^ c.n → s.accumulate w x =
          { s with
            captures := s.captures.set w
              (some { c with acc := c.acc + x.result.pre, count := c.count + 1 }) })
      ∧ ∀ d, x.channel = c.channel → c.count + 1 = 2 ^ c.n → v.chans[c.channel]? = some r →
          Registered s w d → 1 ≤ c.n →
          ∃ mean new : Int,
            2 ^ c.n * mean ≤ c.acc + x.result.pre + 2 ^ (c.n - 1)
            ∧ c.acc + x.result.pre + 2 ^ (c.n - 1) < 2 ^ c.n * (mean + 1)
            ∧ new = max (-32768) (min 32767 (r.offset.toInt - mean))
            ∧ s.accumulate w x = answeredDeferred { s with
                captures := s.captures.set w none
                windows := s.windows.set w { v with
                  chans := v.chans.set c.channel { r with offset := BitVec.ofInt 16 new }
                  stale := if v.defn.mode = .storeBoth then true else v.stale
                  activity := .idle, deferred := none }
                sweep := s.sweep.map fun z =>
                  if v.defn.mode = .storeBoth ∧ z.window = w then { z with restaled := true } else z }
              d .ok (le16 r.offset ++ i16 new ++ i32 mean)

/-- ZERO_CAPTURE: BUSY on a busy window, WRONG_STATE on one not ENABLED, BAD_VALUE for a channel at or
above the count, n outside 4 to 12 or limit 0; else an empty capture with its deadline on the
millisecond base, and a deferred ZERO (R11, R12, R132, R133, R143). CAPTURE_DEADLINE of a capture that
is not full: TIMEOUT with the count, the window IDLE and the context empty, the offset and the stale
flag unchanged (R138). In a run a deadline passes so inside the TIMEBASE_INCREMENT that reaches
it (TimebaseCountsAndIsSet). That the millisecond base is the microsecond base divided by 1000 is the
model's choice (log 4), and so is that the row has the same effect where a deadline reached still stands,
a state that no run comes to (log 5). -/
def Obligations.ZeroCaptureStartsAndTimesOut : Prop :=
  (∀ (s : State) (w : Fin 16) (trn : Byte) (k : Fin 16) (channel n : Byte) (limit : Half),
      LinkTakes s trn k →
      let x := s.windows[w]
      let run := exec (.zeroCapture w trn channel n limit) s
      let refused := fun st => run = .next (replied s k (windowUnit w) trn st [])
      let good := channel.toNat < x.defn.count ∧ 4 ≤ n.toNat ∧ n.toNat ≤ 12 ∧ limit ≠ 0
      (x.state ≠ .enabled → refused .wrongState)
      ∧ (x.state = .enabled → x.activity ≠ .idle → refused .busy)
      ∧ (x.state = .enabled → x.activity = .idle → ¬good → refused .badValue)
      ∧ (x.state = .enabled → x.activity = .idle → good → run = .next (registered { s with
          windows := s.windows.set w { x with activity := .zeroing, deferred := some ⟨trn, .zero⟩ }
          captures := s.captures.set w
            (some ⟨channel.toNat, n.toNat, limit.toNat, 0, 0, s.usBase / 1000 + limit.toNat⟩) }
          k (windowUnit w) trn 0x07)))
  ∧ ∀ (s : State) (w : Fin 16) (c : Capture) (d : DeferredEntry), s.captures[w] = some c →
      c.deadline ≤ s.usBase / 1000 → c.count < 2 ^ c.n → Registered s w d →
      exec (.captureDeadline w) s = .next (answeredDeferred { s with
        windows := s.windows.set w { s.windows[w] with activity := .idle, deferred := none }
        captures := s.captures.set w none } d .timeout (u16 c.count))

/-- MON_SET: BAD_VALUE for an index or value out of range; else the monitor is bound afresh, ARMED with
side UNKNOWN, count 0 and no record (R101, R190). MON_ARM: BAD_VALUE for an index of 16 or more,
WRONG_STATE on an UNBOUND monitor; else ARMED with side UNKNOWN, all else of the monitor kept (R102). -/
def Obligations.MonSetAndArm : Prop :=
  (∀ (s : State) (trn : Byte) (k : Fin 16) (monitor window channel : Byte) (level hysteresis : Half)
      (direction mode : Byte), LinkTakes s trn k →
      let run := exec (.monSet trn monitor window channel level hysteresis direction mode) s
      (16 ≤ monitor.toNat ∨ 16 ≤ window.toNat ∨ 4095 < hysteresis.toNat ∨ 2 < direction.toNat
          ∨ 1 < mode.toNat → run = .next (replied s k 0x20 trn .badValue []))
      ∧ ∀ m w : Fin 16, monitor.toNat = m.val → window.toNat = w.val →
        (s.windows[w].defn.count ≤ channel.toNat → run = .next (replied s k 0x20 trn .badValue []))
        ∧ ∀ (dir : Direction) (md : MonMode), channel.toNat < s.windows[w].defn.count →
            hysteresis.toNat ≤ 4095 → dir.code = direction → md.code = mode →
            run = .next (replied
              { s with
                monitors := s.monitors.set m ⟨.armed,
                  some ⟨w, channel.toNat, level, hysteresis.toNat, dir, md⟩, .unknown, 0, none⟩ }
              k 0x20 trn .ok []))
  ∧ ∀ (s : State) (trn : Byte) (k : Fin 16) (monitor : Byte), LinkTakes s trn k →
      let run := exec (.monArm trn monitor) s
      (16 ≤ monitor.toNat → run = .next (replied s k 0x20 trn .badValue []))
      ∧ ∀ m : Fin 16, monitor.toNat = m.val →
        (s.monitors[m].state = .unbound → run = .next (replied s k 0x20 trn .wrongState []))
        ∧ (s.monitors[m].state ≠ .unbound → run = .next (replied
            { s with
              monitors := s.monitors.set m
                { s.monitors[m] with state := .armed, side := .unknown } } k 0x20 trn .ok []))

/-- MON_RELEASE: the monitor becomes UNBOUND, its binding, parameters and record absent, its side
UNKNOWN and its count 0; the reply is OK and waiting notices stay (R103). An index of 16 or more is
BAD_VALUE (R190). -/
def Obligations.MonReleaseUnbinds : Prop :=
  ∀ (s : State) (trn : Byte) (k : Fin 16) (monitor : Byte), LinkTakes s trn k →
    (16 ≤ monitor.toNat → exec (.monRelease trn monitor) s =
      .next (replied s k 0x20 trn .badValue []))
    ∧ ∀ m : Fin 16, monitor.toNat = m.val → exec (.monRelease trn monitor) s = .next (replied
        { s with monitors := s.monitors.set m ⟨.unbound, none, .unknown, 0, none⟩ } k 0x20 trn .ok [])

/-- MON_QUERY: BAD_VALUE for an index of 16 or more; else OK with 26 bytes, each field at its offset of
R195, and no state changed (R104, R190, R191, R194, R195). -/
def Obligations.MonQueryReportsMonitor : Prop :=
  ∀ (s : State) (trn : Byte) (k : Fin 16) (monitor : Byte), LinkTakes s trn k →
    let run := exec (.monQuery trn monitor) s
    (16 ≤ monitor.toNat → run = .next (replied s k 0x20 trn .badValue []))
    ∧ ∀ m : Fin 16, monitor.toNat = m.val →
      let x := s.monitors[m]
      ∃ p : List Byte, run = .next (replied s k 0x20 trn .ok p) ∧ p.length = 26
        ∧ byteAt p 0 = monitor ∧ byteAt p 1 = x.state.code ∧ byteAt p 11 = x.side.code
        ∧ halfAt p 12 = BitVec.ofNat 16 x.count
        ∧ (byteAt p 2).getLsbD 0 = x.bind.isSome ∧ (byteAt p 2).getLsbD 1 = x.record.isSome
        ∧ (∀ b, x.bind = some b → byteAt p 3 = BitVec.ofNat 8 b.window.val
            ∧ byteAt p 4 = BitVec.ofNat 8 b.channel ∧ halfAt p 5 = b.level
            ∧ halfAt p 7 = BitVec.ofNat 16 b.hysteresis ∧ byteAt p 9 = b.direction.code
            ∧ byteAt p 10 = b.mode.code)
        ∧ (x.bind = none → wordAt p 3 = 0 ∧ wordAt p 7 = 0)
        ∧ (∀ r, x.record = some r →
            byteAt p 14 = (if r.direction = .rising then 0 else 1) ∧ byteAt p 15 = 0
            ∧ halfAt p 16 = BitVec.ofInt 16 r.value ∧ wordAt p 18 = r.addr ∧ wordAt p 22 = r.stamp)
        ∧ (x.record = none → wordAt p 14 = 0 ∧ wordAt p 18 = 0 ∧ wordAt p 22 = 0)

/-! ## Timebase and faults (chapter 9) -/

/-- TIMEBASE_INCREMENT and STROBE_EDGE: the microsecond base steps; the timebase value increases,
wrapping, on its source's counting events once the load is done, and at no other (R143, R144, R145).
Every deadline that the base reaches at this step passes at this step, with its row's effect, and none
that is reached is left standing (R53, R138, R143, R159); a BREAK can be taken before a deadline of its
step and after it (R171, R172). TB_SET: BAD_VALUE for an undefined source or edge; else value, source and
edge are replaced (R146, R190). TB_READ reports the three and changes nothing (R147, R195). That the row
TIMEBASE_INCREMENT is the microsecond base's step, and that the millisecond base is its quotient by 1000
(log 4), that its operands are the order of the events of one step, and the order of those they do not
name (log 5), and that a stop bit counts as a high line from the next step on (log 18) are the model's
choices. -/
def Obligations.TimebaseCountsAndIsSet : Prop :=
  (∀ (s : State) (e : Edge) (early late : List StepEvent),
      let counts := s.phase = .loaded ∨ s.phase = .serving
      let run := exec (.timebaseIncrement early late) s
      let b := { s with
        usBase := s.usBase + 1
        rxHighAt := if s.rxHigh then s.usBase else s.rxHighAt
        rxHigh := false }
      let counted := fun (u : State) => { u with
        tbValue := if counts ∧ s.tbSource = .internal then s.tbValue + 1 else s.tbValue }
      run = .next (runAll (counted (runAll b (early.map eventRow)))
        (late.map eventRow ++ deadlineRows))
      ∧ (DeadlinesFrom s (s.usBase + 2) → .lineBreak ∉ early → .lineBreak ∉ late →
          run = .next (counted b))
      ∧ (∀ t, run = .next t → t.usBase = s.usBase + 1 ∧ DeadlinesFrom t (t.usBase + 1))
      ∧ (counts → s.tbSource = .strobe → s.tbEdge = e → exec (.strobeEdge e) s =
        .next { s with tbValue := s.tbValue + 1 })
      ∧ (¬counts ∨ s.tbSource = .internal ∨ s.tbEdge ≠ e → exec (.strobeEdge e) s = .next s))
  ∧ ∀ (s : State) (trn : Byte) (k : Fin 16) (source edge : Byte) (preset : Word), LinkTakes s trn k →
      let run := exec (.tbSet trn source edge preset) s
      (1 < source.toNat ∨ 1 < edge.toNat → run = .next (replied s k 0x30 trn .badValue []))
      ∧ (source.toNat ≤ 1 → edge.toNat ≤ 1 → run = .next (replied
          { s with
            tbValue := preset
            tbSource := if source = 0 then .internal else .strobe
            tbEdge := if edge = 0 then .rising else .falling } k 0x30 trn .ok []))
      ∧ exec (.tbRead trn) s = .next (replied s k 0x30 trn .ok
          (le32 s.tbValue ++ [if s.tbSource = .internal then 0 else 1,
            if s.tbEdge = .rising then 0 else 1]))

/-- R149's three cases: a fault like the newest record raises its repeat count, saturating; another is
appended with the present stamp, ALERT active and its notice offered, while there is room; else it is
discarded with overflow set (R149, R150, R151, R155). A notice offered joins the tail of its queue while
there is room and the load is done, with the lost count, which becomes 0; else it is discarded and the
lost count rises, to 255 at most (R168). -/
def Obligations.OfferedFaultCoalescesAppendsOrDrops : Prop :=
  ∀ (s : State) (f : FaultInfo),
    let like := fun (r : FaultRecord) =>
      r.info.kind = f.kind ∧ r.info.origin = f.origin ∧ r.info.window = f.window
    (∀ init r, s.faults = init ++ [r] → like r → s.offerFault f =
      { s with
        faults := init ++
          [{ r with repeats := if r.repeats < 255 then r.repeats + 1 else r.repeats }] })
    ∧ ((∀ init r, s.faults = init ++ [r] → ¬like r) →
      (s.faults.length < 8 → s.offerFault f =
        State.offerNotice { s with faults := s.faults ++ [⟨f, s.tbValue, 1⟩], alert := true }
          (.fault ⟨f, s.tbValue, 1⟩))
      ∧ (8 ≤ s.faults.length → s.offerFault f = { s with overflow := true }))
    ∧ ∀ b : NoticeBody,
      let takes := (s.phase = .loaded ∨ s.phase = .serving) ∧ s.notices.length < 8
      (takes → s.offerNotice b = { s with notices := s.notices ++ [⟨s.lost, b⟩], lost := 0 })
      ∧ (¬takes → s.offerNotice b =
        { s with lost := if s.lost < 255 then s.lost + 1 else s.lost })

/-- FAULT_PEEK and FAULT_POP: the count, the overflow flag and the oldest record, or the empty
indication; a pop removes that record, reports what is left, and releases ALERT with the last (R152,
R153, R155, R194, R195). FAULT_CLEAR: every record leaves, the overflow flag is no, ALERT is released,
and the reply carries the number of records and the flag as they stood (R154). That the bits of a flags
byte that R195 does not name are zero is the model's choice (log 22). -/
def Obligations.FaultCommandsReportAndRemove : Prop :=
  (∀ (s : State) (trn : Byte) (k : Fin 16), LinkTakes s trn k →
      (s.faults = [] →
        let empty := .next (replied s k 0x30 trn .ok
          ([0, if s.overflow then 1 else 0] ++ List.replicate 14 0))
        exec (.faultPeek trn) s = empty ∧ exec (.faultPop trn) s = empty)
      ∧ ∀ (r : FaultRecord) (rest : List FaultRecord), s.faults = r :: rest →
        ∃ p : List Byte, p.length = 14
          ∧ byteAt p 0 = r.info.kind.code ∧ byteAt p 1 = r.info.origin.code
          ∧ (byteAt p 2).getLsbD 0 = r.info.window.isSome
          ∧ (byteAt p 2).getLsbD 1 = r.info.addr.isSome
          ∧ (byteAt p 2).getLsbD 2 = r.info.hostTag.isSome
          ∧ byteAt p 3 = (match r.info.window with
              | some w => BitVec.ofNat 8 w.val
              | none => 0)
          ∧ wordAt p 4 = r.info.addr.getD 0
          ∧ byteAt p 8 = (match r.info.hostTag with
              | some h => BitVec.ofNat 8 h.val
              | none => 0)
          ∧ byteAt p 9 = BitVec.ofNat 8 r.repeats ∧ wordAt p 10 = r.stamp
          ∧ exec (.faultPeek trn) s = .next (replied s k 0x30 trn .ok
              ([BitVec.ofNat 8 (rest.length + 1), if s.overflow then 3 else 2] ++ p))
          ∧ exec (.faultPop trn) s = .next (replied
              { s with faults := rest, alert := if rest = [] then false else s.alert } k 0x30 trn .ok
              ([BitVec.ofNat 8 rest.length, if s.overflow then 3 else 2] ++ p)))
  ∧ ∀ (s : State) (trn : Byte) (k : Fin 16), LinkTakes s trn k →
      exec (.faultClear trn) s = .next (replied
        { s with faults := [], overflow := false, alert := if s.faults = [] then s.alert else false }
        k 0x30 trn .ok [BitVec.ofNat 8 s.faults.length, if s.overflow then 1 else 0])

/-! ## The link (chapter 10) -/

/-- LINK_BYTE_RECEIVED: R158's table and R160's check, for a byte that comes before 2 ms have passed since
the one before it; one that finds them passed meets HUNT, its packet discarded with a framing count
(R159). Its stop bit is high (R157), and so no BREAK comes within 1 ms from the next step on (R171, R172). INTER_BYTE_GAP: inside a
packet, 2 ms after its last byte, the packet is discarded with a framing count (R159). In a run the gap
ends so inside the TIMEBASE_INCREMENT that reaches the 2 ms (TimebaseCountsAndIsSet); that a byte or the
row finds them reached, a state that no run comes to, is the model's choice (log 5), and so is that
before the 2 ms, or in HUNT, the row does nothing (log 1). -/
def Obligations.ReceiverFollowsTableAndGap : Prop :=
  (∀ (s : State) (b : Byte), s.phase = .serving → s.breakLow = false →
      let n := s.rx.bytes.length
      let len := (s.rx.bytes.getD 0 0).toNat
      let run := exec (.linkByteReceived b) s
      let high := { s with rxHigh := true }
      let kept := fun st => run = .next { high with rx := ⟨st, s.rx.bytes ++ [b], s.usBase⟩ }
      let dropped := { high with rx := { s.rx with state := .hunt, bytes := [] } }
      let framed := { dropped with
        counters := { s.counters with
          framing := if s.counters.framing < 65535 then s.counters.framing + 1
            else s.counters.framing } }
      (s.rx.state = .hunt → b = 0xA5 → run = .next { high with rx := ⟨.header, [], s.usBase⟩ })
      ∧ (s.rx.state = .hunt → b ≠ 0xA5 → run = .next high)
      ∧ (s.rx.state ≠ .hunt → s.rx.lastAt + 2000 ≤ s.usBase →
        run = exec (.linkByteReceived b) framed)
      ∧ (s.usBase < s.rx.lastAt + 2000 →
        (s.rx.state = .header → n = 0 → b.toNat ≤ 48 → kept .header)
        ∧ (s.rx.state = .header → n = 0 → 48 < b.toNat → run = .next framed)
        ∧ (s.rx.state = .header → 1 ≤ n → n ≤ 2 → kept .header)
        ∧ (s.rx.state = .header → n = 3 → kept (if len = 0 then .check else .payload))
        ∧ (s.rx.state = .payload → n + 1 < 4 + len → kept .payload)
        ∧ (s.rx.state = .payload → n + 1 = 4 + len → kept .check)
        ∧ (s.rx.state = .check → n = 4 + len → kept .check)
        ∧ (s.rx.state = .check → n = 5 + len →
            let body := s.rx.bytes.take (4 + len)
            (crc16 body ≠ b ++ s.rx.bytes.getD (4 + len) 0 → run = .next { dropped with
              counters := { s.counters with
                crc := if s.counters.crc < 65535 then s.counters.crc + 1 else s.counters.crc } })
            ∧ (crc16 body = b ++ s.rx.bytes.getD (4 + len) 0 → run = .next (dropped.handPacket
                ⟨body.getD 1 0, body.getD 2 0, body.getD 3 0, body.drop 4⟩)))))
  ∧ ∀ s : State,
      (s.rx.state ≠ .hunt → s.rx.lastAt + 2000 ≤ s.usBase → exec .interByteGap s = .next { s with
        rx := { s.rx with state := .hunt, bytes := [] }
        counters := { s.counters with framing := if s.counters.framing < 65535
          then s.counters.framing + 1 else s.counters.framing } })
      ∧ (s.rx.state = .hunt ∨ s.usBase < s.rx.lastAt + 2000 → exec .interByteGap s = .next s)

/-- BREAK, the line low for 1 ms on the microsecond base, counted at the earliest from the last moment it
was high or from the opening: R171's six effects, and nothing else, a packet being transmitted keeping
only its character in progress; while the line is low no byte is received and no packet starts.
BREAK_END ends that, and a second low line is timed from it (R143, R166, R171). What came together with
the BREAK and was taken first stands in s, be it a byte or a command whose last stop bit was high at that
moment (R172). That the row says that
the line has been low for the 1000 steps (log 18), and that a BREAK within them or during a BREAK, and a
BREAK_END without one, change nothing (log 1), are the model's choices. -/
def Obligations.BreakClearsUnsent : Prop :=
  ∀ s : State, s.phase = .serving →
    (s.breakLow = false → s.rxHighAt + 1000 ≤ s.usBase → ∃ t, exec .linkBreak s = .next t
      ∧ t.rx.state = .hunt ∧ t.rx.bytes = []
      ∧ (∀ k : Fin 16, t.slots[k] = match s.slots[k] with
          | .held trn unit => .held trn unit
          | _ => .free)
      ∧ t = { s with
          rx := { s.rx with state := t.rx.state, bytes := t.rx.bytes }
          slots := t.slots, replyQueue := [], notices := [], lost := 0, runCount := 0
          breakLow := true
          tx := match s.tx with
            | .idle => .idle
            | .sending _ p => .cutOff p
            | .cutOff p => .cutOff p
          counters := { s.counters with breaks := if s.counters.breaks < 65535
            then s.counters.breaks + 1 else s.counters.breaks } })
    ∧ (s.usBase < s.rxHighAt + 1000 ∨ s.breakLow = true → exec .linkBreak s = .next s)
    ∧ (s.breakLow = true → (∀ b, exec (.linkByteReceived b) s = .next s)
        ∧ exec .transmitterChoice s = .next s
        ∧ exec .breakEnd s = .next { s with breakLow := false, rxHighAt := s.usBase })
    ∧ (s.breakLow = false → exec .breakEnd s = .next s)

/-- TRANSMITTER_CHOICE and TRANSMISSION_END: R169's table, and the slot freed with the last byte; a packet
cut off ends with its character in progress (R171). That a choice with nothing to send changes nothing
(log 1), and that one finds the character of a packet cut off ended (log 19), are the model's choices. A
notice's packet has its unit, its kind, TRN 255 and the payload of R195, each field at its offset (R189,
R190, R194, R195). -/
def Obligations.TransmitterFollowsTable : Prop :=
  ∀ s : State,
    (s.phase = .serving → s.breakLow = false → (s.tx = .idle ∨ ∃ p, s.tx = .cutOff p) →
      (∀ (k : Fin 16) (ks : List (Fin 16)) (r : Reply), s.replyQueue = k :: ks →
        s.slots[k] = .queued r → (s.notices = [] ∨ s.runCount < 4) →
        exec .transmitterChoice s = .next { s with
          replyQueue := ks
          slots := s.slots.set k (.sending r)
          runCount := if s.notices = [] then s.runCount else s.runCount + 1
          tx := .sending (some k) (framePacket r.unit r.status.code r.trn r.payload) })
      ∧ (∀ (n : Notice) (ns : List Notice), s.notices = n :: ns →
        (s.replyQueue = [] ∨ 4 ≤ s.runCount) → exec .transmitterChoice s = .next { s with
          notices := ns, runCount := 0, tx := .sending none (noticePacket n) })
      ∧ (s.replyQueue = [] → s.notices = [] → exec .transmitterChoice s = .next s))
    ∧ (∀ (k : Fin 16) (p : List Byte), s.tx = .sending (some k) p → exec .transmissionEnd s =
        .next { s with tx := .idle, slots := s.slots.set k .free })
    ∧ (∀ p : List Byte, s.tx = .sending none p ∨ s.tx = .cutOff p →
      exec .transmissionEnd s = .next { s with tx := .idle })
    ∧ (∀ (lost : Nat) (m w : Fin 16) (ch n : Nat) (c : Crossing), ∃ p : List Byte,
      noticePacket ⟨lost, .crossing m w ch n c⟩ = framePacket 0x20 0x80 255 p ∧ p.length = 18
        ∧ byteAt p 0 = BitVec.ofNat 8 lost ∧ byteAt p 1 = BitVec.ofNat 8 m.val
        ∧ byteAt p 2 = BitVec.ofNat 8 w.val ∧ byteAt p 3 = BitVec.ofNat 8 ch
        ∧ halfAt p 4 = BitVec.ofNat 16 n ∧ byteAt p 6 = (if c.direction = .rising then 0 else 1)
        ∧ byteAt p 7 = 0 ∧ halfAt p 8 = BitVec.ofInt 16 c.value ∧ wordAt p 10 = c.addr
        ∧ wordAt p 14 = c.stamp)
    ∧ ∀ (lost : Nat) (f : FaultRecord), ∃ p : List Byte,
      noticePacket ⟨lost, .fault f⟩ = framePacket 0x30 0x81 255 p ∧ p.length = 15
        ∧ byteAt p 0 = BitVec.ofNat 8 lost ∧ byteAt p 1 = f.info.kind.code
        ∧ byteAt p 2 = f.info.origin.code ∧ (byteAt p 3).getLsbD 0 = f.info.window.isSome
        ∧ (byteAt p 3).getLsbD 1 = f.info.addr.isSome
        ∧ (byteAt p 3).getLsbD 2 = f.info.hostTag.isSome
        ∧ byteAt p 4 = (match f.info.window with
            | some w => BitVec.ofNat 8 w.val
            | none => 0)
        ∧ wordAt p 5 = f.info.addr.getD 0
        ∧ byteAt p 9 = (match f.info.hostTag with
            | some h => BitVec.ofNat 8 h.val
            | none => 0)
        ∧ byteAt p 10 = BitVec.ofNat 8 f.repeats ∧ wordAt p 11 = f.stamp

/-- The dispatcher (R161, R162, R163): TRN 0 or 255 counts a bad TRN; with no free slot the command
counts an overrun; a pending TRN is answered DUPLICATE; a unit, code or length that R192 does not
define is refused; each is UNDEFINED_COMMAND's effect, and nothing else changes but that the line was
high at its last stop bit (R157). -/
def Obligations.DispatcherRefusals : Prop :=
  ∀ (s : State) (unit code trn : Byte) (payload : List Byte), s.phase = .serving →
    s.breakLow = false →
    let run := exec (.undefinedCommand unit code trn payload) s
    let c := s.counters
    (trn = 0 ∨ trn = 255 → run = .next { s with
      rxHigh := true
      counters := { c with badTrn := if c.badTrn < 65535 then c.badTrn + 1 else c.badTrn } })
    ∧ (trn ≠ 0 → trn ≠ 255 → (∀ k : Fin 16, s.slots[k] ≠ .free) → run = .next { s with
      rxHigh := true
      counters := { c with overrun := if c.overrun < 65535 then c.overrun + 1 else c.overrun } })
    ∧ ∀ k : Fin 16, trn ≠ 0 → trn ≠ 255 → s.slots[k] = .free →
      (∀ j : Fin 16, j < k → s.slots[j] ≠ .free) →
      let refused := fun st => run = .next (replied s k unit trn st [])
      let known := unit = 0x00 ∨ (0x10 ≤ unit.toNat ∧ unit.toNat ≤ 0x1F) ∨ unit = 0x20 ∨ unit = 0x30
        ∨ unit = 0x40
      ((∃ d ∈ s.deferred, d.trn = trn) → refused .duplicate)
      ∧ ((∀ d ∈ s.deferred, d.trn ≠ trn) →
        (¬known → refused .noUnit)
        ∧ ∀ u, unitOf unit = some u →
          (commandLength u code = none → refused .noCommand)
          ∧ ∀ n, commandLength u code = some n → payload.length ≠ n → refused .badLength)

/-- GET_IDENTITY replies OK with the part code 0x4160, the revision 0x02 and the link rate, and changes
nothing (R174). -/
def Obligations.GetIdentityReports : Prop :=
  ∀ (s : State) (trn : Byte) (k : Fin 16), LinkTakes s trn k →
    exec (.getIdentity trn) s = .next (replied s k 0x00 trn .ok
      [0x60, 0x41, 0x02, if s.linkRate = .baud115200 then 0 else 1])

/-- GET_STATUS replies OK with the counts of R175 in the layout of R195, its own slot counted, and
changes nothing (R61, R175, R195). That bits 2 to 7 of the flags byte are zero is the model's choice
(log 22). -/
def Obligations.GetStatusReports : Prop :=
  ∀ (s : State) (trn : Byte) (k : Fin 16) (w : Option (Fin 16)), LinkTakes s trn k →
    (∀ v : Fin 16, w = some v ↔ s.windows[v].activity = .sweeping) →
    exec (.getStatus trn) s = .next (replied s k 0x00 trn .ok
      ([BitVec.ofNat 8 (s.entries.toList.countP Option.isSome),
        BitVec.ofNat 8 (s.tags.toList.countP (· = .free)),
        BitVec.ofNat 8 (s.tags.toList.countP Tag.isInUse),
        BitVec.ofNat 8 (s.tags.toList.countP Tag.isQuarantined)]
      ++ le16 s.limit
      ++ [BitVec.ofNat 8 s.faults.length,
        (if s.overflow then 1 else 0) + (if w.isSome then 2 else 0),
        BitVec.ofNat 8 (s.slots.toList.countP (· ≠ .free) + 1),
        BitVec.ofNat 8 s.deferred.length, BitVec.ofNat 8 s.notices.length, BitVec.ofNat 8 s.lost,
        match w with
        | some v => BitVec.ofNat 8 v.val
        | none => 0]))

/-- SET_LIMITS replaces the D response limit and replies with the one before it (R176); deadlines
already set stay. GET_LINK_COUNTERS replies with the five counters and empties them when the clear flag
is set (R177, R195). -/
def Obligations.LimitsAndCounters : Prop :=
  ∀ (s : State) (trn : Byte) (k : Fin 16) (limit : Half) (flags : Byte), LinkTakes s trn k →
    exec (.setLimits trn limit) s =
      .next (replied { s with limit := limit } k 0x00 trn .ok (le16 s.limit))
    ∧ exec (.getLinkCounters trn flags) s = .next (replied
        { s with counters := if flags.getLsbD 0 then ⟨0, 0, 0, 0, 0⟩ else s.counters } k 0x00 trn .ok
        (u16 s.counters.framing ++ u16 s.counters.crc ++ u16 s.counters.badTrn
          ++ u16 s.counters.overrun ++ u16 s.counters.breaks))

/-! ## The boot store (chapter 11) -/

/-- BOOT_COMMIT: BUSY while a commit is pending; FAILED with the active copy at generation 0xFFFFFFFF;
else the target's marker is cleared, the target is invalid, and the commit is registered with the
snapshot of the configuration and a deferred reply (R183, R185, R195). BOOT_QUERY: BUSY while a commit
is pending; else OK with the status record, and nothing changes (R187). That bits 2 to 7 of BOOT_QUERY's
flags byte are zero is the model's choice (log 22). -/
def Obligations.BootCommitAndQuery : Prop :=
  (∀ (s : State) (trn : Byte) (k : Fin 16), LinkTakes s trn k →
      let run := exec (.bootCommit trn) s
      let code := fun (id : Option CopyId) => match id with
        | some .a => (0 : Byte)
        | some .b => 1
        | none => 2
      (∀ p, s.boot.commit = some p → run = .next (replied s k 0x40 trn .busy []))
      ∧ (s.boot.commit = none → ∀ g : Option Word,
          g = (match s.boot.active with
            | some .a => s.boot.genA
            | some .b => s.boot.genB
            | none => none) →
          (g = some 0xFFFFFFFF → run = .next (replied s k 0x40 trn .failed
            (code s.boot.active :: le32 0xFFFFFFFF)))
          ∧ (g ≠ some 0xFFFFFFFF → ∃ img : BootImage,
            (∀ w : Fin 16, img.windows[w] =
              ⟨s.windows[w].defn, s.windows[w].chans, s.windows[w].state = .enabled⟩)
            ∧ (∀ m : Fin 16, img.monitors[m] =
              if s.monitors[m].state = .unbound then none else s.monitors[m].bind)
            ∧ img.source = s.tbSource ∧ img.edge = s.tbEdge ∧ img.limit = s.limit
            ∧ (s.boot.active = some .a → run = .next (registered { s with
                copyB := { s.copyB with marker := 0 }
                boot := { s.boot with genB := none, commit := some ⟨trn, .b, g.getD 0 + 1, img⟩ } }
                k 0x40 trn 0x01))
            ∧ (s.boot.active ≠ some .a → run = .next (registered { s with
                copyA := { s.copyA with marker := 0 }
                boot := { s.boot with genA := none, commit := some ⟨trn, .a, g.getD 0 + 1, img⟩ } }
                k 0x40 trn 0x01)))))
  ∧ ∀ (s : State) (trn : Byte) (k : Fin 16), LinkTakes s trn k →
      (s.boot.commit ≠ none → exec (.bootQuery trn) s = .next (replied s k 0x40 trn .busy []))
      ∧ (s.boot.commit = none → exec (.bootQuery trn) s = .next (replied s k 0x40 trn .ok
          ([(if s.boot.genA.isSome then (1 : Byte) else 0) + (if s.boot.genB.isSome then 2 else 0),
            match s.boot.active with
            | some .a => 0
            | some .b => 1
            | none => 2] ++ le32 (s.boot.genA.getD 0) ++ le32 (s.boot.genB.getD 0))))

/-- COMMIT_END: a target that reads back other bytes than were to be written keeps them with its marker
clear; else it holds the new generation, the snapshot and their CRC-32 with the marker it reads back.
An exact marker makes it valid and active, with OK; else it is invalid, with FAILED. The reply carries
the target and the new generation, and no commit is pending (R178, R184, R195). A copy is the 896 bytes
of R197. That the row's operand says what is read back (log 11), and that a read-back of the very bytes
is no mismatch and changes nothing (log 1), are the model's choices. -/
def Obligations.CommitEndAnswers : Prop :=
  (∀ (s : State) (p : PendingCommit) (d : DeferredEntry), s.boot.commit = some p →
    s.deferred.find? (·.trn = p.trn) = some d →
    let written := writtenCopy p.generation p.image
    let put := fun (c : BootCopy) => match p.target with
      | .a => { s with copyA := c }
      | .b => { s with copyB := c }
    let reply := (if p.target = .a then (0 : Byte) else 1) :: le32 p.generation
    let failed := fun (c : BootCopy) => (.next (answeredDeferred
      { put c with boot := { s.boot with commit := none } } d .failed reply) : Result)
    (∀ bytes : List Byte, bytes.length = 892 → bytes ≠ written.bytes.drop 4 →
      ∃ c : BootCopy, c.bytes = [0, 0, 0, 0] ++ bytes ∧ c.valid = false
        ∧ exec (.commitEnd (.bodyMismatch bytes)) s = failed c)
    ∧ exec (.commitEnd (.bodyMismatch (written.bytes.drop 4))) s = .next s
    ∧ (∀ marker : Word, marker ≠ 0x5A3C9617 →
      exec (.commitEnd (.markerReadBack marker)) s = failed { written with marker := marker })
    ∧ (p.target = .a → exec (.commitEnd (.markerReadBack 0x5A3C9617)) s = .next (answeredDeferred
        { put written with boot := ⟨some p.generation, s.boot.genB, some .a, none⟩ } d .ok reply))
    ∧ (p.target = .b → exec (.commitEnd (.markerReadBack 0x5A3C9617)) s = .next (answeredDeferred
        { put written with boot := ⟨s.boot.genA, some p.generation, some .b, none⟩ } d .ok reply))
    ∧ written.valid = true ∧ written.generation = p.generation
    ∧ written.payload = encodeImage p.image)
  ∧ ∀ c : BootCopy,
    (c.valid = true ↔ c.marker = 0x5A3C9617 ∧ c.crc = crc32 (le32 c.generation ++ c.payload))
    ∧ (c.payload.length = 884 → c.bytes.length = 896 ∧ wordAt c.bytes 0 = c.marker
      ∧ wordAt c.bytes 4 = c.generation ∧ (c.bytes.drop 8).take 884 = c.payload
      ∧ wordAt c.bytes 892 = c.crc ∧ BootCopy.ofBytes c.bytes = c)

/-- BOOT_RELOAD: BUSY while a commit is pending; WRONG_STATE unless every window is DISABLED, IDLE and
without a deferred command; else the store is read and loaded as at start-up, the timebase value and
the statistics of windows left DISABLED kept, the boot fault offered, and OK carries the copy loaded and
its generation (R178, R181, R186, R195). The operands that say which copy was lost are the model's
choice (log 10). -/
def Obligations.BootReloadLoadsActiveCopy : Prop :=
  ∀ (s : State) (trn : Byte) (k : Fin 16) (lostA lostB : Bool), LinkTakes s trn k →
    let run := exec (.bootReload trn lostA lostB) s
    let out := ∀ w : Fin 16, s.windows[w].state = .disabled ∧ s.windows[w].activity = .idle
      ∧ s.windows[w].deferred = none
    let f := withBootFault s (s.copyA.valid && !lostA) (s.copyB.valid && !lostB)
    (s.boot.commit ≠ none → run = .next (replied s k 0x40 trn .busy []))
    ∧ (s.boot.commit = none → ¬out → run = .next (replied s k 0x40 trn .wrongState []))
    ∧ (s.boot.commit = none → out → ∃ t, LoadedFrom s t lostA lostB
        ∧ (∀ w : Fin 16, t.captures[w] = none
            ∧ t.stats[w] = if t.windows[w].state = .enabled
                then Vector.replicate 4 ⟨0, 0, none, none⟩ else s.stats[w])
        ∧ t = { s with
            windows := t.windows, stats := t.stats, captures := t.captures, monitors := t.monitors
            tbSource := t.tbSource, tbEdge := t.tbEdge, limit := t.limit, boot := t.boot
            copyA := t.copyA, copyB := t.copyB
            faults := f.faults, overflow := f.overflow, alert := f.alert
            notices := f.notices, lost := f.lost }
        ∧ run = .next (replied t k 0x40 trn .ok (match t.boot.active with
            | some .a => 0 :: le32 s.copyA.generation
            | some .b => 1 :: le32 s.copyB.generation
            | none => [2, 0, 0, 0, 0])))

/-! ## Arithmetic (chapter 2) -/

/-- R28: s = floor((x × G + 8192) / 16384), which is x × G / 16384 rounded to nearest with ties toward
+∞, between −131070 and 131066 over the ranges of x and G, x itself at unity gain, and 0 at gain 0. -/
def Obligations.ScaleRoundsToNearest : Prop :=
  ∀ (x : Int) (g : Half),
    16384 * scale x g ≤ x * g.toNat + 8192 ∧ x * g.toNat + 8192 < 16384 * (scale x g + 1)
    ∧ (-32768 ≤ x → x ≤ 32767 → -131070 ≤ scale x g ∧ scale x g ≤ 131066)
    ∧ scale 32767 65535 = 131066 ∧ scale (-32768) 65535 = -131070
    ∧ scale x 16384 = x ∧ scale x 0 = 0

/-- R30: y is the pre-clamp value limited to the clamp, clipped exactly when it lies outside; y lies in
the clamp, and so in 16 bits (R29, R30, R32). R26 and R27: the five conversions by ranges of the raw
value, with the spare bits of the 12-bit formats playing no part. -/
def Obligations.SampleIsConvertedAndClamped : Prop :=
  (∀ (f : RawFormat) (c : ChanRec) (r : Half), c.low.toInt ≤ c.high.toInt →
      let k := condition f c r
      k.pre = scale (convert f r) c.gain + c.offset.toInt
      ∧ (k.pre < c.low.toInt → k.y = c.low.toInt ∧ k.clipped = true)
      ∧ (c.low.toInt ≤ k.pre → k.pre ≤ c.high.toInt → k.y = k.pre ∧ k.clipped = false)
      ∧ (c.high.toInt < k.pre → k.y = c.high.toInt ∧ k.clipped = true)
      ∧ c.low.toInt ≤ k.y ∧ k.y ≤ c.high.toInt
      ∧ (encodeLane k.y).toInt = k.y ∧ -163838 ≤ k.pre ∧ k.pre ≤ 163833)
  ∧ ∀ r : Half,
      (r.toNat ≤ 0x7FFF → convert .s16 r = r.toNat)
      ∧ (0x8000 ≤ r.toNat → convert .s16 r = (r.toNat : Int) - 65536)
      ∧ convert .u16 r = (r.toNat : Int) - 32768
      ∧ convert .u12l r = convert .u16 (r &&& 0xFFF0)
      ∧ convert .u12r r = convert .u12l (r <<< 4)
      ∧ convert .s12r r = convert .s12r (r &&& 0x0FFF)
      ∧ ((r &&& 0x0FFF).toNat ≤ 0x7FF → convert .s12r r = ((r &&& 0x0FFF).toNat : Int) * 16)
      ∧ (0x800 ≤ (r &&& 0x0FFF).toNat →
          convert .s12r r = (((r &&& 0x0FFF).toNat : Int) - 4096) * 16)

/-- R33: a conditioned write keeps its length and its byte enables; a complete lane becomes the encoding
of its conditioned value and an empty lane keeps its bytes; each word's lanes take their channels from
their addresses (R24, R25, R33). Its samples are its complete lanes in ascending address order, each
with its channel, its main-range address and its results (R24, R25, R34, R77). -/
def Obligations.ConditionedBurstKeepsShape : Prop :=
  ∀ (d : WindowDef) (chans : List ChanRec) (addr : Nat) (ws : List WriteWord),
    let channel := fun (a : Nat) => (a - d.base.toNat) / 2 % d.count
    let record := fun (a : Nat) => chans.getD (channel a) ⟨16384, 0, 0x8000, 0x7FFF⟩
    let bits := fun (v : Word) (lane : Nat) => v.extractLsb' (16 * lane) 16
    (conditionBurst d chans addr ws).length = ws.length
    ∧ (∀ (j : Nat) (x : WriteWord), ws[j]? = some x →
      ∃ y, (conditionBurst d chans addr ws)[j]? = some y ∧ y.enables = x.enables
        ∧ ∀ lane : Fin 2,
          let a := addr + 4 * j + 2 * lane.val
          let e0 := x.enables.getLsbD (2 * lane.val)
          let e1 := x.enables.getLsbD (2 * lane.val + 1)
          (e0 = true → e1 = true →
            bits y.data lane = BitVec.ofInt 16 (condition d.format (record a) (bits x.data lane)).y)
          ∧ (e0 = false → e1 = false → bits y.data lane = bits x.data lane))
    ∧ burstSamples d chans addr ws = (List.range (2 * ws.length)).filterMap fun i =>
        let x := ws.getD (i / 2) ⟨0, 0⟩
        let a := addr + 2 * i
        if x.enables.getLsbD (2 * (i % 2)) = true ∧ x.enables.getLsbD (2 * (i % 2) + 1) = true then
          some ⟨channel a, BitVec.ofNat 32 a, condition d.format (record a) (bits x.data (i % 2))⟩
        else none

/-! ## Encodings (chapter 12) -/

/-- Each link command row has the effect of its packet handed to the dispatcher: its unit, code, TRN and
every payload field are read back at their offsets (R163, R192, R193). That a closed link or a BREAK
takes none is R170 and R171; that a row stands for its packet is the model's choice (log 3). -/
def Obligations.CommandRowsAreTheirPackets : Prop :=
  ∀ (i : Instr) (p : Packet) (s : State), commandPacket i = some p →
    exec i s = .next (if s.phase = .serving ∧ s.breakLow = false then s.handPacket p else s)

/-- A packet framed as R189 and R196 say, received byte by byte from HUNT, reaches the dispatcher whole
(R158, R160, R189, R190, R196). -/
def Obligations.FramedPacketIsReceived : Prop :=
  ∀ (s : State) (p : Packet), s.phase = .serving → s.breakLow = false → s.rx.state = .hunt →
    p.payload.length ≤ 48 →
    receiveAll s (framePacket p.unit p.code p.trn p.payload) =
      { s with rx := ⟨.hunt, [], s.usBase⟩ }.handPacket p

/-- An image written in the layout of R197 is read back: 884 bytes, and the same windows, monitors,
timebase settings and limit, for every image whose fields keep their widths and whose windows hold one
record a channel (R179, R197). -/
def Obligations.BootImageRoundTrip : Prop :=
  ∀ i : BootImage,
    (∀ w : Fin 16, i.windows[w].defn.pages < 65536
      ∧ (i.windows[w].defn.count = 1 ∨ i.windows[w].defn.count = 2 ∨ i.windows[w].defn.count = 4)
      ∧ i.windows[w].chans.length = i.windows[w].defn.count) →
    (∀ (m : Fin 16) (b : MonBind), i.monitors[m] = some b → b.channel < 256 ∧ b.hysteresis < 65536) →
    (encodeImage i).length = 884 ∧ decodeImage (encodeImage i) = i

/-! ## Invariants -/

/-- The fault list and ALERT stay sound at every step (R148, R149, R155). -/
def Obligations.FaultListStaysSound : Prop :=
  ∀ s t : State, FaultListSound s → step s = .next t → FaultListSound t

/-- The link's slots, queues and counters stay sound at every step (R161, R164, R166, R168, R169). -/
def Obligations.LinkStaysSound : Prop :=
  ∀ s t : State, LinkSound s → step s = .next t → LinkSound t

/-- The window lifecycle stays sound at every step (R3, R11, R111, R131). -/
def Obligations.LifecycleStaysSound : Prop :=
  ∀ s t : State, LifecycleSound s → step s = .next t → LifecycleSound t

/-- In-flight counts stay exact at every step (R8, R60). -/
def Obligations.InFlightStaysExact : Prop :=
  ∀ s t : State, InFlightSound s → step s = .next t → InFlightSound t

/-- The intake queue, the pending counts, the tags and the offer stay sound at every step, and no
deadline stands that the microsecond base has reached, a capture's being a count of its quotient by 1000
(log 4) (R42, R57, R62, R143). -/
def Obligations.TrackingStaysSound : Prop :=
  ∀ s t : State, TrackingSound s → step s = .next t → TrackingSound t

/-- The overlap law holds at every step, with the boot store sound (R9, R13, R179). -/
def Obligations.OverlapLawHolds : Prop :=
  ∀ s t : State, OverlapSound s → step s = .next t → OverlapSound t

/-- The state after reset, with the values the model chose (log 6), satisfies every invariant. -/
def Obligations.ResetIsSound : Prop :=
  FaultListSound State.reset ∧ LinkSound State.reset ∧ LifecycleSound State.reset
    ∧ InFlightSound State.reset ∧ TrackingSound State.reset ∧ OverlapSound State.reset
end

