-- ==== Sys2Proof/Laws/State.lean ====
section
/-! SUPPORT. What each update of one table element, and of the line's and the base's time, leaves in each field of State,
each true by definition; and reading an element of a table after an update. -/

namespace Sys2Proof.Machine.State

/-! ### setWindow -/

@[simp] theorem setWindow_pending (s : State) (w : Fin 16) (x : Window) :
    (s.setWindow w x).pending = s.pending := rfl
@[simp] theorem setWindow_freeCount (s : State) (w : Fin 16) (x : Window) :
    (s.setWindow w x).freeCount = s.freeCount := rfl
@[simp] theorem setWindow_phase (s : State) (w : Fin 16) (x : Window) :
    (s.setWindow w x).phase = s.phase := rfl
@[simp] theorem setWindow_linkRate (s : State) (w : Fin 16) (x : Window) :
    (s.setWindow w x).linkRate = s.linkRate := rfl
@[simp] theorem setWindow_usBase (s : State) (w : Fin 16) (x : Window) :
    (s.setWindow w x).usBase = s.usBase := rfl
@[simp] theorem setWindow_tbValue (s : State) (w : Fin 16) (x : Window) :
    (s.setWindow w x).tbValue = s.tbValue := rfl
@[simp] theorem setWindow_tbSource (s : State) (w : Fin 16) (x : Window) :
    (s.setWindow w x).tbSource = s.tbSource := rfl
@[simp] theorem setWindow_tbEdge (s : State) (w : Fin 16) (x : Window) :
    (s.setWindow w x).tbEdge = s.tbEdge := rfl
@[simp] theorem setWindow_windows (s : State) (w : Fin 16) (x : Window) :
    (s.setWindow w x).windows = s.windows.set w x := rfl
@[simp] theorem setWindow_stats (s : State) (w : Fin 16) (x : Window) :
    (s.setWindow w x).stats = s.stats := rfl
@[simp] theorem setWindow_captures (s : State) (w : Fin 16) (x : Window) :
    (s.setWindow w x).captures = s.captures := rfl
@[simp] theorem setWindow_monitors (s : State) (w : Fin 16) (x : Window) :
    (s.setWindow w x).monitors = s.monitors := rfl
@[simp] theorem setWindow_entries (s : State) (w : Fin 16) (x : Window) :
    (s.setWindow w x).entries = s.entries := rfl
@[simp] theorem setWindow_accCounter (s : State) (w : Fin 16) (x : Window) :
    (s.setWindow w x).accCounter = s.accCounter := rfl
@[simp] theorem setWindow_offered (s : State) (w : Fin 16) (x : Window) :
    (s.setWindow w x).offered = s.offered := rfl
@[simp] theorem setWindow_intake (s : State) (w : Fin 16) (x : Window) :
    (s.setWindow w x).intake = s.intake := rfl
@[simp] theorem setWindow_tags (s : State) (w : Fin 16) (x : Window) :
    (s.setWindow w x).tags = s.tags := rfl
@[simp] theorem setWindow_limit (s : State) (w : Fin 16) (x : Window) :
    (s.setWindow w x).limit = s.limit := rfl
@[simp] theorem setWindow_turn (s : State) (w : Fin 16) (x : Window) :
    (s.setWindow w x).turn = s.turn := rfl
@[simp] theorem setWindow_fairness (s : State) (w : Fin 16) (x : Window) :
    (s.setWindow w x).fairness = s.fairness := rfl
@[simp] theorem setWindow_sweep (s : State) (w : Fin 16) (x : Window) :
    (s.setWindow w x).sweep = s.sweep := rfl
@[simp] theorem setWindow_faults (s : State) (w : Fin 16) (x : Window) :
    (s.setWindow w x).faults = s.faults := rfl
@[simp] theorem setWindow_overflow (s : State) (w : Fin 16) (x : Window) :
    (s.setWindow w x).overflow = s.overflow := rfl
@[simp] theorem setWindow_alert (s : State) (w : Fin 16) (x : Window) :
    (s.setWindow w x).alert = s.alert := rfl
@[simp] theorem setWindow_rx (s : State) (w : Fin 16) (x : Window) :
    (s.setWindow w x).rx = s.rx := rfl
@[simp] theorem setWindow_slots (s : State) (w : Fin 16) (x : Window) :
    (s.setWindow w x).slots = s.slots := rfl
@[simp] theorem setWindow_replyQueue (s : State) (w : Fin 16) (x : Window) :
    (s.setWindow w x).replyQueue = s.replyQueue := rfl
@[simp] theorem setWindow_deferred (s : State) (w : Fin 16) (x : Window) :
    (s.setWindow w x).deferred = s.deferred := rfl
@[simp] theorem setWindow_notices (s : State) (w : Fin 16) (x : Window) :
    (s.setWindow w x).notices = s.notices := rfl
@[simp] theorem setWindow_lost (s : State) (w : Fin 16) (x : Window) :
    (s.setWindow w x).lost = s.lost := rfl
@[simp] theorem setWindow_tx (s : State) (w : Fin 16) (x : Window) :
    (s.setWindow w x).tx = s.tx := rfl
@[simp] theorem setWindow_runCount (s : State) (w : Fin 16) (x : Window) :
    (s.setWindow w x).runCount = s.runCount := rfl
@[simp] theorem setWindow_counters (s : State) (w : Fin 16) (x : Window) :
    (s.setWindow w x).counters = s.counters := rfl
@[simp] theorem setWindow_breakLow (s : State) (w : Fin 16) (x : Window) :
    (s.setWindow w x).breakLow = s.breakLow := rfl
@[simp] theorem setWindow_rxHighAt (s : State) (w : Fin 16) (x : Window) :
    (s.setWindow w x).rxHighAt = s.rxHighAt := rfl
@[simp] theorem setWindow_rxHigh (s : State) (w : Fin 16) (x : Window) :
    (s.setWindow w x).rxHigh = s.rxHigh := rfl
@[simp] theorem setWindow_copyA (s : State) (w : Fin 16) (x : Window) :
    (s.setWindow w x).copyA = s.copyA := rfl
@[simp] theorem setWindow_copyB (s : State) (w : Fin 16) (x : Window) :
    (s.setWindow w x).copyB = s.copyB := rfl
@[simp] theorem setWindow_boot (s : State) (w : Fin 16) (x : Window) :
    (s.setWindow w x).boot = s.boot := rfl

/-! ### setEntry -/

@[simp] theorem setEntry_pending (s : State) (i : Fin 32) (x : Option Entry) :
    (s.setEntry i x).pending = s.pending := rfl
@[simp] theorem setEntry_freeCount (s : State) (i : Fin 32) (x : Option Entry) :
    (s.setEntry i x).freeCount = s.freeCount := rfl
@[simp] theorem setEntry_phase (s : State) (i : Fin 32) (x : Option Entry) :
    (s.setEntry i x).phase = s.phase := rfl
@[simp] theorem setEntry_linkRate (s : State) (i : Fin 32) (x : Option Entry) :
    (s.setEntry i x).linkRate = s.linkRate := rfl
@[simp] theorem setEntry_usBase (s : State) (i : Fin 32) (x : Option Entry) :
    (s.setEntry i x).usBase = s.usBase := rfl
@[simp] theorem setEntry_tbValue (s : State) (i : Fin 32) (x : Option Entry) :
    (s.setEntry i x).tbValue = s.tbValue := rfl
@[simp] theorem setEntry_tbSource (s : State) (i : Fin 32) (x : Option Entry) :
    (s.setEntry i x).tbSource = s.tbSource := rfl
@[simp] theorem setEntry_tbEdge (s : State) (i : Fin 32) (x : Option Entry) :
    (s.setEntry i x).tbEdge = s.tbEdge := rfl
@[simp] theorem setEntry_windows (s : State) (i : Fin 32) (x : Option Entry) :
    (s.setEntry i x).windows = s.windows := rfl
@[simp] theorem setEntry_stats (s : State) (i : Fin 32) (x : Option Entry) :
    (s.setEntry i x).stats = s.stats := rfl
@[simp] theorem setEntry_captures (s : State) (i : Fin 32) (x : Option Entry) :
    (s.setEntry i x).captures = s.captures := rfl
@[simp] theorem setEntry_monitors (s : State) (i : Fin 32) (x : Option Entry) :
    (s.setEntry i x).monitors = s.monitors := rfl
@[simp] theorem setEntry_entries (s : State) (i : Fin 32) (x : Option Entry) :
    (s.setEntry i x).entries = s.entries.set i x := rfl
@[simp] theorem setEntry_accCounter (s : State) (i : Fin 32) (x : Option Entry) :
    (s.setEntry i x).accCounter = s.accCounter := rfl
@[simp] theorem setEntry_offered (s : State) (i : Fin 32) (x : Option Entry) :
    (s.setEntry i x).offered = s.offered := rfl
@[simp] theorem setEntry_intake (s : State) (i : Fin 32) (x : Option Entry) :
    (s.setEntry i x).intake = s.intake := rfl
@[simp] theorem setEntry_tags (s : State) (i : Fin 32) (x : Option Entry) :
    (s.setEntry i x).tags = s.tags := rfl
@[simp] theorem setEntry_limit (s : State) (i : Fin 32) (x : Option Entry) :
    (s.setEntry i x).limit = s.limit := rfl
@[simp] theorem setEntry_turn (s : State) (i : Fin 32) (x : Option Entry) :
    (s.setEntry i x).turn = s.turn := rfl
@[simp] theorem setEntry_fairness (s : State) (i : Fin 32) (x : Option Entry) :
    (s.setEntry i x).fairness = s.fairness := rfl
@[simp] theorem setEntry_sweep (s : State) (i : Fin 32) (x : Option Entry) :
    (s.setEntry i x).sweep = s.sweep := rfl
@[simp] theorem setEntry_faults (s : State) (i : Fin 32) (x : Option Entry) :
    (s.setEntry i x).faults = s.faults := rfl
@[simp] theorem setEntry_overflow (s : State) (i : Fin 32) (x : Option Entry) :
    (s.setEntry i x).overflow = s.overflow := rfl
@[simp] theorem setEntry_alert (s : State) (i : Fin 32) (x : Option Entry) :
    (s.setEntry i x).alert = s.alert := rfl
@[simp] theorem setEntry_rx (s : State) (i : Fin 32) (x : Option Entry) :
    (s.setEntry i x).rx = s.rx := rfl
@[simp] theorem setEntry_slots (s : State) (i : Fin 32) (x : Option Entry) :
    (s.setEntry i x).slots = s.slots := rfl
@[simp] theorem setEntry_replyQueue (s : State) (i : Fin 32) (x : Option Entry) :
    (s.setEntry i x).replyQueue = s.replyQueue := rfl
@[simp] theorem setEntry_deferred (s : State) (i : Fin 32) (x : Option Entry) :
    (s.setEntry i x).deferred = s.deferred := rfl
@[simp] theorem setEntry_notices (s : State) (i : Fin 32) (x : Option Entry) :
    (s.setEntry i x).notices = s.notices := rfl
@[simp] theorem setEntry_lost (s : State) (i : Fin 32) (x : Option Entry) :
    (s.setEntry i x).lost = s.lost := rfl
@[simp] theorem setEntry_tx (s : State) (i : Fin 32) (x : Option Entry) :
    (s.setEntry i x).tx = s.tx := rfl
@[simp] theorem setEntry_runCount (s : State) (i : Fin 32) (x : Option Entry) :
    (s.setEntry i x).runCount = s.runCount := rfl
@[simp] theorem setEntry_counters (s : State) (i : Fin 32) (x : Option Entry) :
    (s.setEntry i x).counters = s.counters := rfl
@[simp] theorem setEntry_breakLow (s : State) (i : Fin 32) (x : Option Entry) :
    (s.setEntry i x).breakLow = s.breakLow := rfl
@[simp] theorem setEntry_rxHighAt (s : State) (i : Fin 32) (x : Option Entry) :
    (s.setEntry i x).rxHighAt = s.rxHighAt := rfl
@[simp] theorem setEntry_rxHigh (s : State) (i : Fin 32) (x : Option Entry) :
    (s.setEntry i x).rxHigh = s.rxHigh := rfl
@[simp] theorem setEntry_copyA (s : State) (i : Fin 32) (x : Option Entry) :
    (s.setEntry i x).copyA = s.copyA := rfl
@[simp] theorem setEntry_copyB (s : State) (i : Fin 32) (x : Option Entry) :
    (s.setEntry i x).copyB = s.copyB := rfl
@[simp] theorem setEntry_boot (s : State) (i : Fin 32) (x : Option Entry) :
    (s.setEntry i x).boot = s.boot := rfl

/-! ### setTag -/

@[simp] theorem setTag_pending (s : State) (t : Fin 64) (x : Tag) :
    (s.setTag t x).pending = s.pending := rfl
@[simp] theorem setTag_freeCount (s : State) (t : Fin 64) (x : Tag) :
    (s.setTag t x).freeCount = s.freeCount := rfl
@[simp] theorem setTag_phase (s : State) (t : Fin 64) (x : Tag) :
    (s.setTag t x).phase = s.phase := rfl
@[simp] theorem setTag_linkRate (s : State) (t : Fin 64) (x : Tag) :
    (s.setTag t x).linkRate = s.linkRate := rfl
@[simp] theorem setTag_usBase (s : State) (t : Fin 64) (x : Tag) :
    (s.setTag t x).usBase = s.usBase := rfl
@[simp] theorem setTag_tbValue (s : State) (t : Fin 64) (x : Tag) :
    (s.setTag t x).tbValue = s.tbValue := rfl
@[simp] theorem setTag_tbSource (s : State) (t : Fin 64) (x : Tag) :
    (s.setTag t x).tbSource = s.tbSource := rfl
@[simp] theorem setTag_tbEdge (s : State) (t : Fin 64) (x : Tag) :
    (s.setTag t x).tbEdge = s.tbEdge := rfl
@[simp] theorem setTag_windows (s : State) (t : Fin 64) (x : Tag) :
    (s.setTag t x).windows = s.windows := rfl
@[simp] theorem setTag_stats (s : State) (t : Fin 64) (x : Tag) :
    (s.setTag t x).stats = s.stats := rfl
@[simp] theorem setTag_captures (s : State) (t : Fin 64) (x : Tag) :
    (s.setTag t x).captures = s.captures := rfl
@[simp] theorem setTag_monitors (s : State) (t : Fin 64) (x : Tag) :
    (s.setTag t x).monitors = s.monitors := rfl
@[simp] theorem setTag_entries (s : State) (t : Fin 64) (x : Tag) :
    (s.setTag t x).entries = s.entries := rfl
@[simp] theorem setTag_accCounter (s : State) (t : Fin 64) (x : Tag) :
    (s.setTag t x).accCounter = s.accCounter := rfl
@[simp] theorem setTag_offered (s : State) (t : Fin 64) (x : Tag) :
    (s.setTag t x).offered = s.offered := rfl
@[simp] theorem setTag_intake (s : State) (t : Fin 64) (x : Tag) :
    (s.setTag t x).intake = s.intake := rfl
@[simp] theorem setTag_tags (s : State) (t : Fin 64) (x : Tag) :
    (s.setTag t x).tags = s.tags.set t x := rfl
@[simp] theorem setTag_limit (s : State) (t : Fin 64) (x : Tag) :
    (s.setTag t x).limit = s.limit := rfl
@[simp] theorem setTag_turn (s : State) (t : Fin 64) (x : Tag) : (s.setTag t x).turn = s.turn := rfl
@[simp] theorem setTag_fairness (s : State) (t : Fin 64) (x : Tag) :
    (s.setTag t x).fairness = s.fairness := rfl
@[simp] theorem setTag_sweep (s : State) (t : Fin 64) (x : Tag) :
    (s.setTag t x).sweep = s.sweep := rfl
@[simp] theorem setTag_faults (s : State) (t : Fin 64) (x : Tag) :
    (s.setTag t x).faults = s.faults := rfl
@[simp] theorem setTag_overflow (s : State) (t : Fin 64) (x : Tag) :
    (s.setTag t x).overflow = s.overflow := rfl
@[simp] theorem setTag_alert (s : State) (t : Fin 64) (x : Tag) :
    (s.setTag t x).alert = s.alert := rfl
@[simp] theorem setTag_rx (s : State) (t : Fin 64) (x : Tag) : (s.setTag t x).rx = s.rx := rfl
@[simp] theorem setTag_slots (s : State) (t : Fin 64) (x : Tag) :
    (s.setTag t x).slots = s.slots := rfl
@[simp] theorem setTag_replyQueue (s : State) (t : Fin 64) (x : Tag) :
    (s.setTag t x).replyQueue = s.replyQueue := rfl
@[simp] theorem setTag_deferred (s : State) (t : Fin 64) (x : Tag) :
    (s.setTag t x).deferred = s.deferred := rfl
@[simp] theorem setTag_notices (s : State) (t : Fin 64) (x : Tag) :
    (s.setTag t x).notices = s.notices := rfl
@[simp] theorem setTag_lost (s : State) (t : Fin 64) (x : Tag) : (s.setTag t x).lost = s.lost := rfl
@[simp] theorem setTag_tx (s : State) (t : Fin 64) (x : Tag) : (s.setTag t x).tx = s.tx := rfl
@[simp] theorem setTag_runCount (s : State) (t : Fin 64) (x : Tag) :
    (s.setTag t x).runCount = s.runCount := rfl
@[simp] theorem setTag_counters (s : State) (t : Fin 64) (x : Tag) :
    (s.setTag t x).counters = s.counters := rfl
@[simp] theorem setTag_breakLow (s : State) (t : Fin 64) (x : Tag) :
    (s.setTag t x).breakLow = s.breakLow := rfl
@[simp] theorem setTag_rxHighAt (s : State) (t : Fin 64) (x : Tag) :
    (s.setTag t x).rxHighAt = s.rxHighAt := rfl
@[simp] theorem setTag_rxHigh (s : State) (t : Fin 64) (x : Tag) :
    (s.setTag t x).rxHigh = s.rxHigh := rfl
@[simp] theorem setTag_copyA (s : State) (t : Fin 64) (x : Tag) :
    (s.setTag t x).copyA = s.copyA := rfl
@[simp] theorem setTag_copyB (s : State) (t : Fin 64) (x : Tag) :
    (s.setTag t x).copyB = s.copyB := rfl
@[simp] theorem setTag_boot (s : State) (t : Fin 64) (x : Tag) : (s.setTag t x).boot = s.boot := rfl

/-! ### setSlot -/

@[simp] theorem setSlot_pending (s : State) (k : Fin 16) (x : Slot) :
    (s.setSlot k x).pending = s.pending := rfl
@[simp] theorem setSlot_freeCount (s : State) (k : Fin 16) (x : Slot) :
    (s.setSlot k x).freeCount = s.freeCount := rfl
@[simp] theorem setSlot_phase (s : State) (k : Fin 16) (x : Slot) :
    (s.setSlot k x).phase = s.phase := rfl
@[simp] theorem setSlot_linkRate (s : State) (k : Fin 16) (x : Slot) :
    (s.setSlot k x).linkRate = s.linkRate := rfl
@[simp] theorem setSlot_usBase (s : State) (k : Fin 16) (x : Slot) :
    (s.setSlot k x).usBase = s.usBase := rfl
@[simp] theorem setSlot_tbValue (s : State) (k : Fin 16) (x : Slot) :
    (s.setSlot k x).tbValue = s.tbValue := rfl
@[simp] theorem setSlot_tbSource (s : State) (k : Fin 16) (x : Slot) :
    (s.setSlot k x).tbSource = s.tbSource := rfl
@[simp] theorem setSlot_tbEdge (s : State) (k : Fin 16) (x : Slot) :
    (s.setSlot k x).tbEdge = s.tbEdge := rfl
@[simp] theorem setSlot_windows (s : State) (k : Fin 16) (x : Slot) :
    (s.setSlot k x).windows = s.windows := rfl
@[simp] theorem setSlot_stats (s : State) (k : Fin 16) (x : Slot) :
    (s.setSlot k x).stats = s.stats := rfl
@[simp] theorem setSlot_captures (s : State) (k : Fin 16) (x : Slot) :
    (s.setSlot k x).captures = s.captures := rfl
@[simp] theorem setSlot_monitors (s : State) (k : Fin 16) (x : Slot) :
    (s.setSlot k x).monitors = s.monitors := rfl
@[simp] theorem setSlot_entries (s : State) (k : Fin 16) (x : Slot) :
    (s.setSlot k x).entries = s.entries := rfl
@[simp] theorem setSlot_accCounter (s : State) (k : Fin 16) (x : Slot) :
    (s.setSlot k x).accCounter = s.accCounter := rfl
@[simp] theorem setSlot_offered (s : State) (k : Fin 16) (x : Slot) :
    (s.setSlot k x).offered = s.offered := rfl
@[simp] theorem setSlot_intake (s : State) (k : Fin 16) (x : Slot) :
    (s.setSlot k x).intake = s.intake := rfl
@[simp] theorem setSlot_tags (s : State) (k : Fin 16) (x : Slot) :
    (s.setSlot k x).tags = s.tags := rfl
@[simp] theorem setSlot_limit (s : State) (k : Fin 16) (x : Slot) :
    (s.setSlot k x).limit = s.limit := rfl
@[simp] theorem setSlot_turn (s : State) (k : Fin 16) (x : Slot) :
    (s.setSlot k x).turn = s.turn := rfl
@[simp] theorem setSlot_fairness (s : State) (k : Fin 16) (x : Slot) :
    (s.setSlot k x).fairness = s.fairness := rfl
@[simp] theorem setSlot_sweep (s : State) (k : Fin 16) (x : Slot) :
    (s.setSlot k x).sweep = s.sweep := rfl
@[simp] theorem setSlot_faults (s : State) (k : Fin 16) (x : Slot) :
    (s.setSlot k x).faults = s.faults := rfl
@[simp] theorem setSlot_overflow (s : State) (k : Fin 16) (x : Slot) :
    (s.setSlot k x).overflow = s.overflow := rfl
@[simp] theorem setSlot_alert (s : State) (k : Fin 16) (x : Slot) :
    (s.setSlot k x).alert = s.alert := rfl
@[simp] theorem setSlot_rx (s : State) (k : Fin 16) (x : Slot) : (s.setSlot k x).rx = s.rx := rfl
@[simp] theorem setSlot_slots (s : State) (k : Fin 16) (x : Slot) :
    (s.setSlot k x).slots = s.slots.set k x := rfl
@[simp] theorem setSlot_replyQueue (s : State) (k : Fin 16) (x : Slot) :
    (s.setSlot k x).replyQueue = s.replyQueue := rfl
@[simp] theorem setSlot_deferred (s : State) (k : Fin 16) (x : Slot) :
    (s.setSlot k x).deferred = s.deferred := rfl
@[simp] theorem setSlot_notices (s : State) (k : Fin 16) (x : Slot) :
    (s.setSlot k x).notices = s.notices := rfl
@[simp] theorem setSlot_lost (s : State) (k : Fin 16) (x : Slot) :
    (s.setSlot k x).lost = s.lost := rfl
@[simp] theorem setSlot_tx (s : State) (k : Fin 16) (x : Slot) : (s.setSlot k x).tx = s.tx := rfl
@[simp] theorem setSlot_runCount (s : State) (k : Fin 16) (x : Slot) :
    (s.setSlot k x).runCount = s.runCount := rfl
@[simp] theorem setSlot_counters (s : State) (k : Fin 16) (x : Slot) :
    (s.setSlot k x).counters = s.counters := rfl
@[simp] theorem setSlot_breakLow (s : State) (k : Fin 16) (x : Slot) :
    (s.setSlot k x).breakLow = s.breakLow := rfl
@[simp] theorem setSlot_rxHighAt (s : State) (k : Fin 16) (x : Slot) :
    (s.setSlot k x).rxHighAt = s.rxHighAt := rfl
@[simp] theorem setSlot_rxHigh (s : State) (k : Fin 16) (x : Slot) :
    (s.setSlot k x).rxHigh = s.rxHigh := rfl
@[simp] theorem setSlot_copyA (s : State) (k : Fin 16) (x : Slot) :
    (s.setSlot k x).copyA = s.copyA := rfl
@[simp] theorem setSlot_copyB (s : State) (k : Fin 16) (x : Slot) :
    (s.setSlot k x).copyB = s.copyB := rfl
@[simp] theorem setSlot_boot (s : State) (k : Fin 16) (x : Slot) :
    (s.setSlot k x).boot = s.boot := rfl

/-! ### setMonitor -/

@[simp] theorem setMonitor_pending (s : State) (m : Fin 16) (x : Monitor) :
    (s.setMonitor m x).pending = s.pending := rfl
@[simp] theorem setMonitor_freeCount (s : State) (m : Fin 16) (x : Monitor) :
    (s.setMonitor m x).freeCount = s.freeCount := rfl
@[simp] theorem setMonitor_phase (s : State) (m : Fin 16) (x : Monitor) :
    (s.setMonitor m x).phase = s.phase := rfl
@[simp] theorem setMonitor_linkRate (s : State) (m : Fin 16) (x : Monitor) :
    (s.setMonitor m x).linkRate = s.linkRate := rfl
@[simp] theorem setMonitor_usBase (s : State) (m : Fin 16) (x : Monitor) :
    (s.setMonitor m x).usBase = s.usBase := rfl
@[simp] theorem setMonitor_tbValue (s : State) (m : Fin 16) (x : Monitor) :
    (s.setMonitor m x).tbValue = s.tbValue := rfl
@[simp] theorem setMonitor_tbSource (s : State) (m : Fin 16) (x : Monitor) :
    (s.setMonitor m x).tbSource = s.tbSource := rfl
@[simp] theorem setMonitor_tbEdge (s : State) (m : Fin 16) (x : Monitor) :
    (s.setMonitor m x).tbEdge = s.tbEdge := rfl
@[simp] theorem setMonitor_windows (s : State) (m : Fin 16) (x : Monitor) :
    (s.setMonitor m x).windows = s.windows := rfl
@[simp] theorem setMonitor_stats (s : State) (m : Fin 16) (x : Monitor) :
    (s.setMonitor m x).stats = s.stats := rfl
@[simp] theorem setMonitor_captures (s : State) (m : Fin 16) (x : Monitor) :
    (s.setMonitor m x).captures = s.captures := rfl
@[simp] theorem setMonitor_monitors (s : State) (m : Fin 16) (x : Monitor) :
    (s.setMonitor m x).monitors = s.monitors.set m x := rfl
@[simp] theorem setMonitor_entries (s : State) (m : Fin 16) (x : Monitor) :
    (s.setMonitor m x).entries = s.entries := rfl
@[simp] theorem setMonitor_accCounter (s : State) (m : Fin 16) (x : Monitor) :
    (s.setMonitor m x).accCounter = s.accCounter := rfl
@[simp] theorem setMonitor_offered (s : State) (m : Fin 16) (x : Monitor) :
    (s.setMonitor m x).offered = s.offered := rfl
@[simp] theorem setMonitor_intake (s : State) (m : Fin 16) (x : Monitor) :
    (s.setMonitor m x).intake = s.intake := rfl
@[simp] theorem setMonitor_tags (s : State) (m : Fin 16) (x : Monitor) :
    (s.setMonitor m x).tags = s.tags := rfl
@[simp] theorem setMonitor_limit (s : State) (m : Fin 16) (x : Monitor) :
    (s.setMonitor m x).limit = s.limit := rfl
@[simp] theorem setMonitor_turn (s : State) (m : Fin 16) (x : Monitor) :
    (s.setMonitor m x).turn = s.turn := rfl
@[simp] theorem setMonitor_fairness (s : State) (m : Fin 16) (x : Monitor) :
    (s.setMonitor m x).fairness = s.fairness := rfl
@[simp] theorem setMonitor_sweep (s : State) (m : Fin 16) (x : Monitor) :
    (s.setMonitor m x).sweep = s.sweep := rfl
@[simp] theorem setMonitor_faults (s : State) (m : Fin 16) (x : Monitor) :
    (s.setMonitor m x).faults = s.faults := rfl
@[simp] theorem setMonitor_overflow (s : State) (m : Fin 16) (x : Monitor) :
    (s.setMonitor m x).overflow = s.overflow := rfl
@[simp] theorem setMonitor_alert (s : State) (m : Fin 16) (x : Monitor) :
    (s.setMonitor m x).alert = s.alert := rfl
@[simp] theorem setMonitor_rx (s : State) (m : Fin 16) (x : Monitor) :
    (s.setMonitor m x).rx = s.rx := rfl
@[simp] theorem setMonitor_slots (s : State) (m : Fin 16) (x : Monitor) :
    (s.setMonitor m x).slots = s.slots := rfl
@[simp] theorem setMonitor_replyQueue (s : State) (m : Fin 16) (x : Monitor) :
    (s.setMonitor m x).replyQueue = s.replyQueue := rfl
@[simp] theorem setMonitor_deferred (s : State) (m : Fin 16) (x : Monitor) :
    (s.setMonitor m x).deferred = s.deferred := rfl
@[simp] theorem setMonitor_notices (s : State) (m : Fin 16) (x : Monitor) :
    (s.setMonitor m x).notices = s.notices := rfl
@[simp] theorem setMonitor_lost (s : State) (m : Fin 16) (x : Monitor) :
    (s.setMonitor m x).lost = s.lost := rfl
@[simp] theorem setMonitor_tx (s : State) (m : Fin 16) (x : Monitor) :
    (s.setMonitor m x).tx = s.tx := rfl
@[simp] theorem setMonitor_runCount (s : State) (m : Fin 16) (x : Monitor) :
    (s.setMonitor m x).runCount = s.runCount := rfl
@[simp] theorem setMonitor_counters (s : State) (m : Fin 16) (x : Monitor) :
    (s.setMonitor m x).counters = s.counters := rfl
@[simp] theorem setMonitor_breakLow (s : State) (m : Fin 16) (x : Monitor) :
    (s.setMonitor m x).breakLow = s.breakLow := rfl
@[simp] theorem setMonitor_rxHighAt (s : State) (m : Fin 16) (x : Monitor) :
    (s.setMonitor m x).rxHighAt = s.rxHighAt := rfl
@[simp] theorem setMonitor_rxHigh (s : State) (m : Fin 16) (x : Monitor) :
    (s.setMonitor m x).rxHigh = s.rxHigh := rfl
@[simp] theorem setMonitor_copyA (s : State) (m : Fin 16) (x : Monitor) :
    (s.setMonitor m x).copyA = s.copyA := rfl
@[simp] theorem setMonitor_copyB (s : State) (m : Fin 16) (x : Monitor) :
    (s.setMonitor m x).copyB = s.copyB := rfl
@[simp] theorem setMonitor_boot (s : State) (m : Fin 16) (x : Monitor) :
    (s.setMonitor m x).boot = s.boot := rfl

/-! ### setCapture -/

@[simp] theorem setCapture_pending (s : State) (w : Fin 16) (x : Option Capture) :
    (s.setCapture w x).pending = s.pending := rfl
@[simp] theorem setCapture_freeCount (s : State) (w : Fin 16) (x : Option Capture) :
    (s.setCapture w x).freeCount = s.freeCount := rfl
@[simp] theorem setCapture_phase (s : State) (w : Fin 16) (x : Option Capture) :
    (s.setCapture w x).phase = s.phase := rfl
@[simp] theorem setCapture_linkRate (s : State) (w : Fin 16) (x : Option Capture) :
    (s.setCapture w x).linkRate = s.linkRate := rfl
@[simp] theorem setCapture_usBase (s : State) (w : Fin 16) (x : Option Capture) :
    (s.setCapture w x).usBase = s.usBase := rfl
@[simp] theorem setCapture_tbValue (s : State) (w : Fin 16) (x : Option Capture) :
    (s.setCapture w x).tbValue = s.tbValue := rfl
@[simp] theorem setCapture_tbSource (s : State) (w : Fin 16) (x : Option Capture) :
    (s.setCapture w x).tbSource = s.tbSource := rfl
@[simp] theorem setCapture_tbEdge (s : State) (w : Fin 16) (x : Option Capture) :
    (s.setCapture w x).tbEdge = s.tbEdge := rfl
@[simp] theorem setCapture_windows (s : State) (w : Fin 16) (x : Option Capture) :
    (s.setCapture w x).windows = s.windows := rfl
@[simp] theorem setCapture_stats (s : State) (w : Fin 16) (x : Option Capture) :
    (s.setCapture w x).stats = s.stats := rfl
@[simp] theorem setCapture_captures (s : State) (w : Fin 16) (x : Option Capture) :
    (s.setCapture w x).captures = s.captures.set w x := rfl
@[simp] theorem setCapture_monitors (s : State) (w : Fin 16) (x : Option Capture) :
    (s.setCapture w x).monitors = s.monitors := rfl
@[simp] theorem setCapture_entries (s : State) (w : Fin 16) (x : Option Capture) :
    (s.setCapture w x).entries = s.entries := rfl
@[simp] theorem setCapture_accCounter (s : State) (w : Fin 16) (x : Option Capture) :
    (s.setCapture w x).accCounter = s.accCounter := rfl
@[simp] theorem setCapture_offered (s : State) (w : Fin 16) (x : Option Capture) :
    (s.setCapture w x).offered = s.offered := rfl
@[simp] theorem setCapture_intake (s : State) (w : Fin 16) (x : Option Capture) :
    (s.setCapture w x).intake = s.intake := rfl
@[simp] theorem setCapture_tags (s : State) (w : Fin 16) (x : Option Capture) :
    (s.setCapture w x).tags = s.tags := rfl
@[simp] theorem setCapture_limit (s : State) (w : Fin 16) (x : Option Capture) :
    (s.setCapture w x).limit = s.limit := rfl
@[simp] theorem setCapture_turn (s : State) (w : Fin 16) (x : Option Capture) :
    (s.setCapture w x).turn = s.turn := rfl
@[simp] theorem setCapture_fairness (s : State) (w : Fin 16) (x : Option Capture) :
    (s.setCapture w x).fairness = s.fairness := rfl
@[simp] theorem setCapture_sweep (s : State) (w : Fin 16) (x : Option Capture) :
    (s.setCapture w x).sweep = s.sweep := rfl
@[simp] theorem setCapture_faults (s : State) (w : Fin 16) (x : Option Capture) :
    (s.setCapture w x).faults = s.faults := rfl
@[simp] theorem setCapture_overflow (s : State) (w : Fin 16) (x : Option Capture) :
    (s.setCapture w x).overflow = s.overflow := rfl
@[simp] theorem setCapture_alert (s : State) (w : Fin 16) (x : Option Capture) :
    (s.setCapture w x).alert = s.alert := rfl
@[simp] theorem setCapture_rx (s : State) (w : Fin 16) (x : Option Capture) :
    (s.setCapture w x).rx = s.rx := rfl
@[simp] theorem setCapture_slots (s : State) (w : Fin 16) (x : Option Capture) :
    (s.setCapture w x).slots = s.slots := rfl
@[simp] theorem setCapture_replyQueue (s : State) (w : Fin 16) (x : Option Capture) :
    (s.setCapture w x).replyQueue = s.replyQueue := rfl
@[simp] theorem setCapture_deferred (s : State) (w : Fin 16) (x : Option Capture) :
    (s.setCapture w x).deferred = s.deferred := rfl
@[simp] theorem setCapture_notices (s : State) (w : Fin 16) (x : Option Capture) :
    (s.setCapture w x).notices = s.notices := rfl
@[simp] theorem setCapture_lost (s : State) (w : Fin 16) (x : Option Capture) :
    (s.setCapture w x).lost = s.lost := rfl
@[simp] theorem setCapture_tx (s : State) (w : Fin 16) (x : Option Capture) :
    (s.setCapture w x).tx = s.tx := rfl
@[simp] theorem setCapture_runCount (s : State) (w : Fin 16) (x : Option Capture) :
    (s.setCapture w x).runCount = s.runCount := rfl
@[simp] theorem setCapture_counters (s : State) (w : Fin 16) (x : Option Capture) :
    (s.setCapture w x).counters = s.counters := rfl
@[simp] theorem setCapture_breakLow (s : State) (w : Fin 16) (x : Option Capture) :
    (s.setCapture w x).breakLow = s.breakLow := rfl
@[simp] theorem setCapture_rxHighAt (s : State) (w : Fin 16) (x : Option Capture) :
    (s.setCapture w x).rxHighAt = s.rxHighAt := rfl
@[simp] theorem setCapture_rxHigh (s : State) (w : Fin 16) (x : Option Capture) :
    (s.setCapture w x).rxHigh = s.rxHigh := rfl
@[simp] theorem setCapture_copyA (s : State) (w : Fin 16) (x : Option Capture) :
    (s.setCapture w x).copyA = s.copyA := rfl
@[simp] theorem setCapture_copyB (s : State) (w : Fin 16) (x : Option Capture) :
    (s.setCapture w x).copyB = s.copyB := rfl
@[simp] theorem setCapture_boot (s : State) (w : Fin 16) (x : Option Capture) :
    (s.setCapture w x).boot = s.boot := rfl

/-! ### setStats -/

@[simp] theorem setStats_pending (s : State) (w : Fin 16) (c : Fin 4) (x : Stats) :
    (s.setStats w c x).pending = s.pending := rfl
@[simp] theorem setStats_freeCount (s : State) (w : Fin 16) (c : Fin 4) (x : Stats) :
    (s.setStats w c x).freeCount = s.freeCount := rfl
@[simp] theorem setStats_phase (s : State) (w : Fin 16) (c : Fin 4) (x : Stats) :
    (s.setStats w c x).phase = s.phase := rfl
@[simp] theorem setStats_linkRate (s : State) (w : Fin 16) (c : Fin 4) (x : Stats) :
    (s.setStats w c x).linkRate = s.linkRate := rfl
@[simp] theorem setStats_usBase (s : State) (w : Fin 16) (c : Fin 4) (x : Stats) :
    (s.setStats w c x).usBase = s.usBase := rfl
@[simp] theorem setStats_tbValue (s : State) (w : Fin 16) (c : Fin 4) (x : Stats) :
    (s.setStats w c x).tbValue = s.tbValue := rfl
@[simp] theorem setStats_tbSource (s : State) (w : Fin 16) (c : Fin 4) (x : Stats) :
    (s.setStats w c x).tbSource = s.tbSource := rfl
@[simp] theorem setStats_tbEdge (s : State) (w : Fin 16) (c : Fin 4) (x : Stats) :
    (s.setStats w c x).tbEdge = s.tbEdge := rfl
@[simp] theorem setStats_windows (s : State) (w : Fin 16) (c : Fin 4) (x : Stats) :
    (s.setStats w c x).windows = s.windows := rfl
@[simp] theorem setStats_stats (s : State) (w : Fin 16) (c : Fin 4) (x : Stats) :
    (s.setStats w c x).stats = s.stats.set w ((s.stats[w]).set c x) := rfl
@[simp] theorem setStats_captures (s : State) (w : Fin 16) (c : Fin 4) (x : Stats) :
    (s.setStats w c x).captures = s.captures := rfl
@[simp] theorem setStats_monitors (s : State) (w : Fin 16) (c : Fin 4) (x : Stats) :
    (s.setStats w c x).monitors = s.monitors := rfl
@[simp] theorem setStats_entries (s : State) (w : Fin 16) (c : Fin 4) (x : Stats) :
    (s.setStats w c x).entries = s.entries := rfl
@[simp] theorem setStats_accCounter (s : State) (w : Fin 16) (c : Fin 4) (x : Stats) :
    (s.setStats w c x).accCounter = s.accCounter := rfl
@[simp] theorem setStats_offered (s : State) (w : Fin 16) (c : Fin 4) (x : Stats) :
    (s.setStats w c x).offered = s.offered := rfl
@[simp] theorem setStats_intake (s : State) (w : Fin 16) (c : Fin 4) (x : Stats) :
    (s.setStats w c x).intake = s.intake := rfl
@[simp] theorem setStats_tags (s : State) (w : Fin 16) (c : Fin 4) (x : Stats) :
    (s.setStats w c x).tags = s.tags := rfl
@[simp] theorem setStats_limit (s : State) (w : Fin 16) (c : Fin 4) (x : Stats) :
    (s.setStats w c x).limit = s.limit := rfl
@[simp] theorem setStats_turn (s : State) (w : Fin 16) (c : Fin 4) (x : Stats) :
    (s.setStats w c x).turn = s.turn := rfl
@[simp] theorem setStats_fairness (s : State) (w : Fin 16) (c : Fin 4) (x : Stats) :
    (s.setStats w c x).fairness = s.fairness := rfl
@[simp] theorem setStats_sweep (s : State) (w : Fin 16) (c : Fin 4) (x : Stats) :
    (s.setStats w c x).sweep = s.sweep := rfl
@[simp] theorem setStats_faults (s : State) (w : Fin 16) (c : Fin 4) (x : Stats) :
    (s.setStats w c x).faults = s.faults := rfl
@[simp] theorem setStats_overflow (s : State) (w : Fin 16) (c : Fin 4) (x : Stats) :
    (s.setStats w c x).overflow = s.overflow := rfl
@[simp] theorem setStats_alert (s : State) (w : Fin 16) (c : Fin 4) (x : Stats) :
    (s.setStats w c x).alert = s.alert := rfl
@[simp] theorem setStats_rx (s : State) (w : Fin 16) (c : Fin 4) (x : Stats) :
    (s.setStats w c x).rx = s.rx := rfl
@[simp] theorem setStats_slots (s : State) (w : Fin 16) (c : Fin 4) (x : Stats) :
    (s.setStats w c x).slots = s.slots := rfl
@[simp] theorem setStats_replyQueue (s : State) (w : Fin 16) (c : Fin 4) (x : Stats) :
    (s.setStats w c x).replyQueue = s.replyQueue := rfl
@[simp] theorem setStats_deferred (s : State) (w : Fin 16) (c : Fin 4) (x : Stats) :
    (s.setStats w c x).deferred = s.deferred := rfl
@[simp] theorem setStats_notices (s : State) (w : Fin 16) (c : Fin 4) (x : Stats) :
    (s.setStats w c x).notices = s.notices := rfl
@[simp] theorem setStats_lost (s : State) (w : Fin 16) (c : Fin 4) (x : Stats) :
    (s.setStats w c x).lost = s.lost := rfl
@[simp] theorem setStats_tx (s : State) (w : Fin 16) (c : Fin 4) (x : Stats) :
    (s.setStats w c x).tx = s.tx := rfl
@[simp] theorem setStats_runCount (s : State) (w : Fin 16) (c : Fin 4) (x : Stats) :
    (s.setStats w c x).runCount = s.runCount := rfl
@[simp] theorem setStats_counters (s : State) (w : Fin 16) (c : Fin 4) (x : Stats) :
    (s.setStats w c x).counters = s.counters := rfl
@[simp] theorem setStats_breakLow (s : State) (w : Fin 16) (c : Fin 4) (x : Stats) :
    (s.setStats w c x).breakLow = s.breakLow := rfl
@[simp] theorem setStats_rxHighAt (s : State) (w : Fin 16) (c : Fin 4) (x : Stats) :
    (s.setStats w c x).rxHighAt = s.rxHighAt := rfl
@[simp] theorem setStats_rxHigh (s : State) (w : Fin 16) (c : Fin 4) (x : Stats) :
    (s.setStats w c x).rxHigh = s.rxHigh := rfl
@[simp] theorem setStats_copyA (s : State) (w : Fin 16) (c : Fin 4) (x : Stats) :
    (s.setStats w c x).copyA = s.copyA := rfl
@[simp] theorem setStats_copyB (s : State) (w : Fin 16) (c : Fin 4) (x : Stats) :
    (s.setStats w c x).copyB = s.copyB := rfl
@[simp] theorem setStats_boot (s : State) (w : Fin 16) (c : Fin 4) (x : Stats) :
    (s.setStats w c x).boot = s.boot := rfl

/-! ### timeLine -/

@[simp] theorem timeLine_pending (s : State) : s.timeLine.pending = s.pending := rfl
@[simp] theorem timeLine_freeCount (s : State) : s.timeLine.freeCount = s.freeCount := rfl
@[simp] theorem timeLine_phase (s : State) : s.timeLine.phase = s.phase := rfl
@[simp] theorem timeLine_linkRate (s : State) : s.timeLine.linkRate = s.linkRate := rfl
@[simp] theorem timeLine_usBase (s : State) : s.timeLine.usBase = s.usBase := rfl
@[simp] theorem timeLine_tbValue (s : State) : s.timeLine.tbValue = s.tbValue := rfl
@[simp] theorem timeLine_tbSource (s : State) : s.timeLine.tbSource = s.tbSource := rfl
@[simp] theorem timeLine_tbEdge (s : State) : s.timeLine.tbEdge = s.tbEdge := rfl
@[simp] theorem timeLine_windows (s : State) : s.timeLine.windows = s.windows := rfl
@[simp] theorem timeLine_stats (s : State) : s.timeLine.stats = s.stats := rfl
@[simp] theorem timeLine_captures (s : State) : s.timeLine.captures = s.captures := rfl
@[simp] theorem timeLine_monitors (s : State) : s.timeLine.monitors = s.monitors := rfl
@[simp] theorem timeLine_entries (s : State) : s.timeLine.entries = s.entries := rfl
@[simp] theorem timeLine_accCounter (s : State) : s.timeLine.accCounter = s.accCounter := rfl
@[simp] theorem timeLine_offered (s : State) : s.timeLine.offered = s.offered := rfl
@[simp] theorem timeLine_intake (s : State) : s.timeLine.intake = s.intake := rfl
@[simp] theorem timeLine_tags (s : State) : s.timeLine.tags = s.tags := rfl
@[simp] theorem timeLine_limit (s : State) : s.timeLine.limit = s.limit := rfl
@[simp] theorem timeLine_turn (s : State) : s.timeLine.turn = s.turn := rfl
@[simp] theorem timeLine_fairness (s : State) : s.timeLine.fairness = s.fairness := rfl
@[simp] theorem timeLine_sweep (s : State) : s.timeLine.sweep = s.sweep := rfl
@[simp] theorem timeLine_faults (s : State) : s.timeLine.faults = s.faults := rfl
@[simp] theorem timeLine_overflow (s : State) : s.timeLine.overflow = s.overflow := rfl
@[simp] theorem timeLine_alert (s : State) : s.timeLine.alert = s.alert := rfl
@[simp] theorem timeLine_rx (s : State) : s.timeLine.rx = s.rx := rfl
@[simp] theorem timeLine_slots (s : State) : s.timeLine.slots = s.slots := rfl
@[simp] theorem timeLine_replyQueue (s : State) : s.timeLine.replyQueue = s.replyQueue := rfl
@[simp] theorem timeLine_deferred (s : State) : s.timeLine.deferred = s.deferred := rfl
@[simp] theorem timeLine_notices (s : State) : s.timeLine.notices = s.notices := rfl
@[simp] theorem timeLine_lost (s : State) : s.timeLine.lost = s.lost := rfl
@[simp] theorem timeLine_tx (s : State) : s.timeLine.tx = s.tx := rfl
@[simp] theorem timeLine_runCount (s : State) : s.timeLine.runCount = s.runCount := rfl
@[simp] theorem timeLine_counters (s : State) : s.timeLine.counters = s.counters := rfl
@[simp] theorem timeLine_breakLow (s : State) : s.timeLine.breakLow = s.breakLow := rfl
@[simp] theorem timeLine_rxHighAt (s : State) : s.timeLine.rxHighAt = s.usBase := rfl
@[simp] theorem timeLine_rxHigh (s : State) : s.timeLine.rxHigh = s.rxHigh := rfl
@[simp] theorem timeLine_copyA (s : State) : s.timeLine.copyA = s.copyA := rfl
@[simp] theorem timeLine_copyB (s : State) : s.timeLine.copyB = s.copyB := rfl
@[simp] theorem timeLine_boot (s : State) : s.timeLine.boot = s.boot := rfl

/-! ### seeHigh -/

@[simp] theorem seeHigh_pending (s : State) : s.seeHigh.pending = s.pending := rfl
@[simp] theorem seeHigh_freeCount (s : State) : s.seeHigh.freeCount = s.freeCount := rfl
@[simp] theorem seeHigh_phase (s : State) : s.seeHigh.phase = s.phase := rfl
@[simp] theorem seeHigh_linkRate (s : State) : s.seeHigh.linkRate = s.linkRate := rfl
@[simp] theorem seeHigh_usBase (s : State) : s.seeHigh.usBase = s.usBase := rfl
@[simp] theorem seeHigh_tbValue (s : State) : s.seeHigh.tbValue = s.tbValue := rfl
@[simp] theorem seeHigh_tbSource (s : State) : s.seeHigh.tbSource = s.tbSource := rfl
@[simp] theorem seeHigh_tbEdge (s : State) : s.seeHigh.tbEdge = s.tbEdge := rfl
@[simp] theorem seeHigh_windows (s : State) : s.seeHigh.windows = s.windows := rfl
@[simp] theorem seeHigh_stats (s : State) : s.seeHigh.stats = s.stats := rfl
@[simp] theorem seeHigh_captures (s : State) : s.seeHigh.captures = s.captures := rfl
@[simp] theorem seeHigh_monitors (s : State) : s.seeHigh.monitors = s.monitors := rfl
@[simp] theorem seeHigh_entries (s : State) : s.seeHigh.entries = s.entries := rfl
@[simp] theorem seeHigh_accCounter (s : State) : s.seeHigh.accCounter = s.accCounter := rfl
@[simp] theorem seeHigh_offered (s : State) : s.seeHigh.offered = s.offered := rfl
@[simp] theorem seeHigh_intake (s : State) : s.seeHigh.intake = s.intake := rfl
@[simp] theorem seeHigh_tags (s : State) : s.seeHigh.tags = s.tags := rfl
@[simp] theorem seeHigh_limit (s : State) : s.seeHigh.limit = s.limit := rfl
@[simp] theorem seeHigh_turn (s : State) : s.seeHigh.turn = s.turn := rfl
@[simp] theorem seeHigh_fairness (s : State) : s.seeHigh.fairness = s.fairness := rfl
@[simp] theorem seeHigh_sweep (s : State) : s.seeHigh.sweep = s.sweep := rfl
@[simp] theorem seeHigh_faults (s : State) : s.seeHigh.faults = s.faults := rfl
@[simp] theorem seeHigh_overflow (s : State) : s.seeHigh.overflow = s.overflow := rfl
@[simp] theorem seeHigh_alert (s : State) : s.seeHigh.alert = s.alert := rfl
@[simp] theorem seeHigh_rx (s : State) : s.seeHigh.rx = s.rx := rfl
@[simp] theorem seeHigh_slots (s : State) : s.seeHigh.slots = s.slots := rfl
@[simp] theorem seeHigh_replyQueue (s : State) : s.seeHigh.replyQueue = s.replyQueue := rfl
@[simp] theorem seeHigh_deferred (s : State) : s.seeHigh.deferred = s.deferred := rfl
@[simp] theorem seeHigh_notices (s : State) : s.seeHigh.notices = s.notices := rfl
@[simp] theorem seeHigh_lost (s : State) : s.seeHigh.lost = s.lost := rfl
@[simp] theorem seeHigh_tx (s : State) : s.seeHigh.tx = s.tx := rfl
@[simp] theorem seeHigh_runCount (s : State) : s.seeHigh.runCount = s.runCount := rfl
@[simp] theorem seeHigh_counters (s : State) : s.seeHigh.counters = s.counters := rfl
@[simp] theorem seeHigh_breakLow (s : State) : s.seeHigh.breakLow = s.breakLow := rfl
@[simp] theorem seeHigh_rxHighAt (s : State) : s.seeHigh.rxHighAt = s.rxHighAt := rfl
@[simp] theorem seeHigh_rxHigh (s : State) : s.seeHigh.rxHigh = true := rfl
@[simp] theorem seeHigh_copyA (s : State) : s.seeHigh.copyA = s.copyA := rfl
@[simp] theorem seeHigh_copyB (s : State) : s.seeHigh.copyB = s.copyB := rfl
@[simp] theorem seeHigh_boot (s : State) : s.seeHigh.boot = s.boot := rfl

/-! ### stepBase -/

@[simp] theorem stepBase_pending (s : State) : s.stepBase.pending = s.pending := rfl
@[simp] theorem stepBase_freeCount (s : State) : s.stepBase.freeCount = s.freeCount := rfl
@[simp] theorem stepBase_phase (s : State) : s.stepBase.phase = s.phase := rfl
@[simp] theorem stepBase_linkRate (s : State) : s.stepBase.linkRate = s.linkRate := rfl
@[simp] theorem stepBase_usBase (s : State) : s.stepBase.usBase = s.usBase + 1 := rfl
@[simp] theorem stepBase_tbValue (s : State) : s.stepBase.tbValue = s.tbValue := rfl
@[simp] theorem stepBase_tbSource (s : State) : s.stepBase.tbSource = s.tbSource := rfl
@[simp] theorem stepBase_tbEdge (s : State) : s.stepBase.tbEdge = s.tbEdge := rfl
@[simp] theorem stepBase_windows (s : State) : s.stepBase.windows = s.windows := rfl
@[simp] theorem stepBase_stats (s : State) : s.stepBase.stats = s.stats := rfl
@[simp] theorem stepBase_captures (s : State) : s.stepBase.captures = s.captures := rfl
@[simp] theorem stepBase_monitors (s : State) : s.stepBase.monitors = s.monitors := rfl
@[simp] theorem stepBase_entries (s : State) : s.stepBase.entries = s.entries := rfl
@[simp] theorem stepBase_accCounter (s : State) : s.stepBase.accCounter = s.accCounter := rfl
@[simp] theorem stepBase_offered (s : State) : s.stepBase.offered = s.offered := rfl
@[simp] theorem stepBase_intake (s : State) : s.stepBase.intake = s.intake := rfl
@[simp] theorem stepBase_tags (s : State) : s.stepBase.tags = s.tags := rfl
@[simp] theorem stepBase_limit (s : State) : s.stepBase.limit = s.limit := rfl
@[simp] theorem stepBase_turn (s : State) : s.stepBase.turn = s.turn := rfl
@[simp] theorem stepBase_fairness (s : State) : s.stepBase.fairness = s.fairness := rfl
@[simp] theorem stepBase_sweep (s : State) : s.stepBase.sweep = s.sweep := rfl
@[simp] theorem stepBase_faults (s : State) : s.stepBase.faults = s.faults := rfl
@[simp] theorem stepBase_overflow (s : State) : s.stepBase.overflow = s.overflow := rfl
@[simp] theorem stepBase_alert (s : State) : s.stepBase.alert = s.alert := rfl
@[simp] theorem stepBase_rx (s : State) : s.stepBase.rx = s.rx := rfl
@[simp] theorem stepBase_slots (s : State) : s.stepBase.slots = s.slots := rfl
@[simp] theorem stepBase_replyQueue (s : State) : s.stepBase.replyQueue = s.replyQueue := rfl
@[simp] theorem stepBase_deferred (s : State) : s.stepBase.deferred = s.deferred := rfl
@[simp] theorem stepBase_notices (s : State) : s.stepBase.notices = s.notices := rfl
@[simp] theorem stepBase_lost (s : State) : s.stepBase.lost = s.lost := rfl
@[simp] theorem stepBase_tx (s : State) : s.stepBase.tx = s.tx := rfl
@[simp] theorem stepBase_runCount (s : State) : s.stepBase.runCount = s.runCount := rfl
@[simp] theorem stepBase_counters (s : State) : s.stepBase.counters = s.counters := rfl
@[simp] theorem stepBase_breakLow (s : State) : s.stepBase.breakLow = s.breakLow := rfl
@[simp] theorem stepBase_rxHighAt (s : State) : s.stepBase.rxHighAt =
    if s.rxHigh then s.usBase else s.rxHighAt := rfl
@[simp] theorem stepBase_rxHigh (s : State) : s.stepBase.rxHigh = false := rfl
@[simp] theorem stepBase_copyA (s : State) : s.stepBase.copyA = s.copyA := rfl
@[simp] theorem stepBase_copyB (s : State) : s.stepBase.copyB = s.copyB := rfl
@[simp] theorem stepBase_boot (s : State) : s.stepBase.boot = s.boot := rfl

end Sys2Proof.Machine.State

namespace Sys2Proof.Machine

/-- Reading element j of a table after element i is set. -/
theorem get_set {α : Type} {n : Nat} (v : Vector α n) (i j : Fin n) (x : α) :
    (v.set i x)[j] = if i = j then x else v[j] := by
  simp only [Fin.getElem_fin, Vector.getElem_set, Fin.ext_iff]

/-- The element that was set. -/
theorem get_set_self {α : Type} {n : Nat} (v : Vector α n) (i : Fin n) (x : α) :
    (v.set i x)[i] = x := by
  rw [get_set, if_pos rfl]

/-- Another element than the one that was set. -/
theorem get_set_ne {α : Type} {n : Nat} (v : Vector α n) {i j : Fin n} (x : α) (h : i ≠ j) :
    (v.set i x)[j] = v[j] := by
  rw [get_set, if_neg h]

/-- The later of two updates of one element stands. -/
@[simp] theorem set_set_self {α : Type} {n : Nat} (v : Vector α n) (i : Fin n) (x y : α) :
    (v.set i x).set i y = v.set i y := by
  apply Vector.ext
  intro j hj
  simp only [Vector.getElem_set]
  split <;> rfl

/-- Two vectors of equal elements are equal. -/
theorem vector_ext_fin {α : Type} {n : Nat} {u v : Vector α n} (h : ∀ i : Fin n, u[i] = v[i]) :
    u = v :=
  Vector.ext fun i hi => h ⟨i, hi⟩

end Sys2Proof.Machine
end

