-- ==== Sys2Proof/Laws/Ops.lean ====
section
/-! SUPPORT. For each shared operation over State, what it can do, said once: its cases, and its frame
(the fields it may change, every other one being as before). -/

namespace Sys2Proof.Machine

/-! ### Counters -/

/-- A saturating counter moves by one below its largest value and stays there at it. -/
theorem satInc_eq (max n : Nat) : satInc max n = if n < max then n + 1 else n := rfl

/-- A saturating counter keeps its bound. -/
theorem satInc_le {max n : Nat} (h : n ≤ max) : satInc max n ≤ max := by
  unfold satInc
  split <;> omega

/-- A saturating counter never falls. -/
theorem le_satInc (max n : Nat) : n ≤ satInc max n := by
  unfold satInc
  split <;> omega

namespace State

/-! ### Notices (R168) -/

/-- A notice is enqueued with the lost count, or discarded and counted. -/
theorem offerNotice_cases (s : State) (b : NoticeBody) :
    (s.loadDone = true ∧ s.notices.length < 8
      ∧ s.offerNotice b = { s with notices := s.notices ++ [⟨s.lost, b⟩], lost := 0 })
    ∨ (¬(s.loadDone = true ∧ s.notices.length < 8)
      ∧ s.offerNotice b = { s with lost := satInc 255 s.lost }) := by
  unfold offerNotice
  split <;> simp_all

/-- A notice changes the notice queue and the lost count only. -/
theorem offerNotice_frame (s : State) (b : NoticeBody) :
    ∃ ns l, s.offerNotice b = { s with notices := ns, lost := l } := by
  rcases s.offerNotice_cases b with ⟨_, _, h⟩ | ⟨_, h⟩ <;> exact ⟨_, _, h⟩

/-! ### Faults (R149) -/

/-- The three cases of an offered fault. -/
theorem offerFault_cases (s : State) (f : FaultInfo) :
    (∃ init r, s.faults = init ++ [r] ∧ coalesces r f = true
      ∧ s.offerFault f =
        { s with faults := init ++ [{ r with repeats := satInc 255 r.repeats }] })
    ∨ ((∀ init r, s.faults = init ++ [r] → coalesces r f = false) ∧ s.faults.length < 8
      ∧ s.offerFault f = s.appendFault f)
    ∨ ((∀ init r, s.faults = init ++ [r] → coalesces r f = false) ∧ 8 ≤ s.faults.length
      ∧ s.offerFault f = { s with overflow := true }) := by
  rcases List.eq_nil_or_concat s.faults with h | ⟨init, r, h⟩
  · right; left
    simp [offerFault, h]
  · have hl : s.faults.getLast? = some r := by simp [h]
    have hd : s.faults.dropLast = init := by simp [h]
    by_cases hc : coalesces r f = true
    · left
      refine ⟨init, r, by simpa using h, hc, ?_⟩
      simp [offerFault, hl, hc, hd]
    · have hn : ∀ i q, s.faults = i ++ [q] → coalesces q f = false := by
        intro i q hq
        have : q = r := by
          have := congrArg List.getLast? hq
          simp [hl] at this
          exact this.symm
        subst this
        simpa using hc
      right
      by_cases hlt : s.faults.length < 8
      · left
        refine ⟨hn, hlt, ?_⟩
        simp [offerFault, hl, hc, hlt]
      · right
        refine ⟨hn, by omega, ?_⟩
        simp [offerFault, hl, hc, hlt]

/-- An append adds one record of repeat count 1, drives ALERT, and offers its notice. -/
theorem appendFault_eq (s : State) (f : FaultInfo) :
    ∃ ns l, s.appendFault f =
      { s with faults := s.faults ++ [⟨f, s.tbValue, 1⟩], alert := true, notices := ns, lost := l } := by
  unfold appendFault
  obtain ⟨ns, l, h⟩ := offerNotice_frame
    { s with faults := s.faults ++ [⟨f, s.tbValue, 1⟩], alert := true } (.fault ⟨f, s.tbValue, 1⟩)
  exact ⟨ns, l, h⟩

/-- A fault changes the fault list, its overflow flag, ALERT and the notices only. -/
theorem offerFault_frame (s : State) (f : FaultInfo) :
    ∃ fl ov al ns l, s.offerFault f =
      { s with faults := fl, overflow := ov, alert := al, notices := ns, lost := l } := by
  rcases s.offerFault_cases f with ⟨_, _, _, _, h⟩ | ⟨_, _, h⟩ | ⟨_, _, h⟩
  · exact ⟨_, s.overflow, s.alert, s.notices, s.lost, h⟩
  · obtain ⟨ns, l, h'⟩ := s.appendFault_eq f
    exact ⟨_, s.overflow, true, ns, l, h.trans h'⟩
  · exact ⟨s.faults, true, s.alert, s.notices, s.lost, h⟩

/-! ### Replies and deferred commands (R11, R164, R166) -/

/-- A made reply fills its slot and joins the tail of the reply queue. -/
theorem queueReply_eq (s : State) (k : Fin 16) (r : Reply) :
    s.queueReply k r =
      { s with slots := s.slots.set k (.queued r), replyQueue := s.replyQueue ++ [k] } := rfl

/-- A listed deferred command is answered. -/
theorem completeDeferred_of_find {s : State} {trn : Byte} {d : DeferredEntry}
    (h : s.deferred.find? (·.trn = trn) = some d) (status : Status) (payload : List Byte) :
    s.completeDeferred trn status payload = answeredDeferred s d status payload := by
  have ht : d.trn = trn := by simpa using List.find?_some h
  subst ht
  simp only [completeDeferred, h, answeredDeferred, queueReply_eq]

/-- With no list entry of the TRN nothing happens. -/
theorem completeDeferred_of_none {s : State} {trn : Byte}
    (h : s.deferred.find? (·.trn = trn) = none) (status : Status) (payload : List Byte) :
    s.completeDeferred trn status payload = s := by
  simp only [completeDeferred, h]

/-- A deferred reply changes the deferred-command list, the slots and the reply queue only. -/
theorem completeDeferred_frame (s : State) (trn : Byte) (status : Status) (payload : List Byte) :
    ∃ ds sl rq, s.completeDeferred trn status payload =
      { s with deferred := ds, slots := sl, replyQueue := rq } := by
  cases h : s.deferred.find? (·.trn = trn) with
  | none => exact ⟨_, _, _, completeDeferred_of_none h status payload⟩
  | some d => exact ⟨_, _, _, completeDeferred_of_find h status payload⟩

/-- A window's registered deferred command is answered and leaves the window. -/
theorem endWindowCommand_of_registered {s : State} {w : Fin 16} {d : DeferredEntry}
    (h : Registered s w d) (status : Status) (payload : List Byte) :
    s.endWindowCommand w status payload =
      answeredDeferred (s.setWindow w { s.windows[w] with deferred := none }) d status payload := by
  obtain ⟨h1, h2⟩ := h
  cases hd : s.windows[w].deferred with
  | none =>
    rw [hd] at h1
    cases h1
  | some c =>
    have hc : c.trn = d.trn := by
      rw [hd] at h1
      simpa using h1
    simp only [endWindowCommand, hd, hc]
    exact completeDeferred_of_find (s := s.setWindow w { s.windows[w] with deferred := none }) h2 _ _

/-- The end of a window's deferred command changes that window's deferred command and the link's reply
side only. -/
theorem endWindowCommand_frame (s : State) (w : Fin 16) (status : Status) (payload : List Byte) :
    ∃ ds sl rq, s.endWindowCommand w status payload =
      { s with windows := s.windows.set w { s.windows[w] with deferred := none },
               deferred := ds, slots := sl, replyQueue := rq } := by
  cases hd : s.windows[w].deferred with
  | none =>
    refine ⟨s.deferred, s.slots, s.replyQueue, ?_⟩
    simp only [endWindowCommand, hd]
    rfl
  | some c =>
    obtain ⟨ds, sl, rq, h⟩ := completeDeferred_frame
      (s.setWindow w { s.windows[w] with deferred := none }) c.trn status payload
    refine ⟨ds, sl, rq, ?_⟩
    simp only [endWindowCommand, hd]
    exact h

/-- A window's long operation ends with its registered deferred reply. -/
theorem endActivity_of_registered {s : State} {w : Fin 16} {d : DeferredEntry}
    (h : Registered s w d) (status : Status) (payload : List Byte) :
    s.endActivity w status payload =
      answeredDeferred (s.setWindow w { s.windows[w] with activity := .idle, deferred := none }) d
        status payload := by
  obtain ⟨h1, h2⟩ := h
  have hr : Registered (s.setWindow w { s.windows[w] with activity := .idle }) w d := by
    refine ⟨?_, h2⟩
    rw [setWindow_windows, get_set_self]
    exact h1
  rw [endActivity, endWindowCommand_of_registered hr]
  simp only [setWindow, get_set_self, set_set_self]

/-- The end of a long operation changes that window's activity and deferred command, and the link's
reply side, only. -/
theorem endActivity_frame (s : State) (w : Fin 16) (status : Status) (payload : List Byte) :
    ∃ ds sl rq, s.endActivity w status payload =
      { s with windows := s.windows.set w { s.windows[w] with activity := .idle, deferred := none },
               deferred := ds, slots := sl, replyQueue := rq } := by
  obtain ⟨ds, sl, rq, h⟩ := endWindowCommand_frame
    (s.setWindow w { s.windows[w] with activity := .idle }) w status payload
  refine ⟨ds, sl, rq, ?_⟩
  rw [endActivity, h]
  simp only [setWindow, get_set_self, set_set_self]

/-! ### Stale (R10, R122) -/

/-- Setting a stale flag marks the sweep of that window restaled, and changes nothing else. -/
theorem setStale_eq (s : State) (w : Fin 16) :
    s.setStale w =
      { s with
        windows := s.windows.set w { s.windows[w] with stale := true }
        sweep := s.sweep.map fun c => if c.window = w then { c with restaled := true } else c } := rfl

/-! ### The response arbiter (R57) -/

/-- A response on offer stays. -/
theorem offerResponse_of_some {s : State} {i : Fin 32} (h : s.offered = some i) :
    s.offerResponse = s := by
  simp only [offerResponse, h]

/-- An empty channel gets the arbiter's choice. -/
theorem offerResponse_of_none {s : State} (h : s.offered = none) :
    s.offerResponse = { s with offered := s.choice } := by
  simp only [offerResponse, h]

/-- The arbiter changes the response on offer only. -/
theorem offerResponse_frame (s : State) : ∃ o, s.offerResponse = { s with offered := o } := by
  cases h : s.offered with
  | some i => exact ⟨some i, by rw [offerResponse_of_some h, ← h]⟩
  | none => exact ⟨_, offerResponse_of_none h⟩

/-- An entry that is offered newly is READY. -/
theorem choice_eligible {s : State} {i : Fin 32} (h : s.choice = some i) : s.eligible i = true := by
  have := List.find?_some h
  simp only [Bool.and_eq_true] at this
  exact this.1

/-- An eligible entry is READY, and no older non-FREE entry has its host tag. -/
theorem eligible_iff (s : State) (i : Fin 32) :
    s.eligible i = true ↔
      ∃ e, s.entries[i] = some e ∧ e.state = .ready ∧
        ∀ (j : Fin 32) (f : Entry), s.entries[j] = some f →
          ¬(f.hostTag = e.hostTag ∧ older f.num e.num = true) := by
  unfold eligible
  cases h : s.entries[i] with
  | none => simp
  | some e =>
    simp only [Bool.and_eq_true, decide_eq_true_eq, List.all_eq_true, List.mem_finRange,
      true_implies, Option.some.injEq, exists_eq_left']
    refine and_congr_right fun _ => forall_congr' fun j => ?_
    cases hj : s.entries[j] with
    | none => simp
    | some f =>
      simp only [Option.some.injEq, forall_eq']
      simp [Decidable.imp_iff_not_or]

/-! ### Answered sub-requests (R50, R53, R55, R56) -/

/-- An answer to an entry that is not there does nothing. -/
theorem answerEntry_of_none {s : State} {i : Fin 32} (h : s.entries[i] = none) (st : HostStatus) :
    s.answerEntry i st = s := by
  simp only [answerEntry, h]

/-- An answer updates its entry, and may set a window's stale flag. -/
theorem answerEntry_of_some {s : State} {i : Fin 32} {e : Entry} (h : s.entries[i] = some e)
    (st : HostStatus) :
    s.answerEntry i st = (s.setEntry i (some (answered e st))).markStale e st := by
  simp only [answerEntry, h]

/-- A failed sub-request of a COND_WRITE_SHADOW entry sets its window's stale flag; nothing else sets
one. -/
theorem markStale_cases (s : State) (e : Entry) (st : HostStatus) :
    (∃ w, e.window = some w ∧ e.action = .condWriteShadow ∧ st ≠ .okay
      ∧ s.markStale e st = s.setStale w)
    ∨ (¬(e.window.isSome ∧ e.action = .condWriteShadow ∧ st ≠ .okay) ∧ s.markStale e st = s) := by
  unfold markStale
  cases h : e.window with
  | none => simp
  | some w =>
    by_cases hc : e.action = .condWriteShadow ∧ st ≠ .okay
    · left
      exact ⟨w, rfl, hc.1, hc.2, by simp [hc.1, hc.2]⟩
    · right
      refine ⟨by simpa using hc, ?_⟩
      have : (decide (e.action = .condWriteShadow) && decide (st ≠ .okay)) = false := by
        simpa using hc
      simp only [this]
      rfl

/-- An answer changes its entry, and a window's stale flag and the sweep's restaled mark only. -/
theorem answerEntry_frame (s : State) (i : Fin 32) (st : HostStatus) :
    ∃ en ws sw, s.answerEntry i st = { s with entries := en, windows := ws, sweep := sw } := by
  cases h : s.entries[i] with
  | none => exact ⟨s.entries, s.windows, s.sweep, answerEntry_of_none h st⟩
  | some e =>
    rcases (s.setEntry i (some (answered e st))).markStale_cases e st with ⟨w, _, _, _, hm⟩ | ⟨_, hm⟩
    · exact ⟨_, _, _, (answerEntry_of_some h st).trans (hm.trans (setStale_eq _ w))⟩
    · exact ⟨_, s.windows, s.sweep, (answerEntry_of_some h st).trans hm⟩

/-- The read return path changes its entry only. -/
theorem placeRead_of_some {s : State} {i : Fin 32} {e : Entry} (h : s.entries[i] = some e)
    (ws : List Word) :
    s.placeRead i ws = s.setEntry i (some { e with buffer := s.placedBuffer e ws }) := by
  simp only [placeRead, h]

/-- A buffer of `len` words has `len` words. -/
theorem fitWords_length (len : Nat) (ws : List Word) : (fitWords len ws).length = len := by
  simp only [fitWords, List.length_append, List.length_take, List.length_replicate]
  omega

/-! ### Tags (R46) -/

/-- A tag is in the list of free tags exactly when it is free. -/
theorem mem_freeTags (s : State) (t : Fin 64) : t ∈ s.freeTags ↔ s.tags[t] = .free := by
  simp [freeTags, tagFree]

/-- The free tags are listed lowest first, none twice. -/
theorem freeTags_sorted (s : State) : s.freeTags.Pairwise (· < ·) :=
  (List.pairwise_lt_finRange 64).filter _

/-- The lowest free tag heads the list. -/
theorem freeTags_of_lowest {s : State} {t : Fin 64} (hf : s.tags[t] = .free)
    (hl : ∀ u : Fin 64, u < t → s.tags[u] ≠ .free) : ∃ rest, s.freeTags = t :: rest := by
  cases h : s.freeTags with
  | nil =>
    have := (s.mem_freeTags t).2 hf
    simp [h] at this
  | cons u rest =>
    have hu : s.tags[u] = .free := (s.mem_freeTags u).1 (by simp [h])
    have ht : t ∈ u :: rest := h ▸ (s.mem_freeTags t).2 hf
    rcases List.mem_cons.1 ht with rfl | hm
    · exact ⟨rest, rfl⟩
    · have hs := s.freeTags_sorted
      rw [h] at hs
      exact absurd hu (hl u (List.rel_of_pairwise_cons hs hm))

/-! ### The consumers of the sample stream (R77) -/

/-- A counted sample changes the statistics only. -/
theorem countSample_frame (s : State) (w : Fin 16) (x : Sample) :
    ∃ st, s.countSample w x = { s with stats := st } := ⟨_, rfl⟩

/-- A watched sample changes its monitor and the notices only. -/
theorem watchSample_frame (s : State) (w : Fin 16) (stamp : Word) (x : Sample) (k : Fin 16) :
    ∃ m ns l, s.watchSample w stamp x k = { s with monitors := m, notices := ns, lost := l } := by
  cases hb : s.monitors[k].bind with
  | none => exact ⟨s.monitors, s.notices, s.lost, by simp only [watchSample, hb]⟩
  | some b =>
    simp only [watchSample, hb]
    split
    · split
      · exact ⟨_, s.notices, s.lost, rfl⟩
      · split
        · obtain ⟨ns, l, h⟩ := offerNotice_frame (s.setMonitor k (s.monitors[k].cross b _ _)) _
          exact ⟨_, ns, l, h⟩
        · exact ⟨_, s.notices, s.lost, rfl⟩
    · exact ⟨s.monitors, s.notices, s.lost, rfl⟩

/-- A sample at the monitors changes the monitors and the notices only. -/
theorem watch_frame (s : State) (w : Fin 16) (stamp : Word) (x : Sample) :
    ∃ m ns l, s.watch w stamp x = { s with monitors := m, notices := ns, lost := l } := by
  unfold watch
  split
  · generalize List.finRange 16 = ks
    rename_i h
    clear h
    induction ks generalizing s with
    | nil => exact ⟨s.monitors, s.notices, s.lost, rfl⟩
    | cons k ks ih =>
      rw [List.foldl_cons]
      obtain ⟨m, ns, l, h⟩ := s.watchSample_frame w stamp x k
      rw [h]
      obtain ⟨m', ns', l', h'⟩ := ih { s with monitors := m, notices := ns, lost := l }
      exact ⟨m', ns', l', h'⟩
  · exact ⟨s.monitors, s.notices, s.lost, rfl⟩

/-- A capture with a sample to take keeps it, or completes; any other capture is untouched (R134 to
R136). -/
theorem accumulate_cases (s : State) (w : Fin 16) (x : Sample) :
    (∃ k, s.captures[w] = some k ∧ x.channel = k.channel ∧ k.count + 1 = 2 ^ k.n
      ∧ s.accumulate w x =
        s.completeCapture w { k with acc := k.acc + x.result.pre, count := k.count + 1 })
    ∨ (∃ k, s.captures[w] = some k ∧ x.channel = k.channel ∧ k.count + 1 < 2 ^ k.n
      ∧ s.accumulate w x =
        s.setCapture w (some { k with acc := k.acc + x.result.pre, count := k.count + 1 }))
    ∨ ((∀ k, s.captures[w] = some k → ¬(x.channel = k.channel ∧ k.count < 2 ^ k.n))
      ∧ s.accumulate w x = s) := by
  cases hk : s.captures[w] with
  | none => right; right; exact ⟨by simp, by simp only [accumulate, hk]⟩
  | some k =>
    by_cases hc : x.channel = k.channel ∧ k.count < 2 ^ k.n
    · by_cases hf : k.count + 1 = 2 ^ k.n
      · left
        exact ⟨k, rfl, hc.1, hf, by simp [accumulate, hk, hc.1, hc.2, hf]⟩
      · right; left
        exact ⟨k, rfl, hc.1, by omega, by simp [accumulate, hk, hc.1, hc.2, hf]⟩
    · right; right
      refine ⟨by simpa using hc, ?_⟩
      have : (decide (x.channel = k.channel) && decide (k.count < 2 ^ k.n)) = false := by
        simpa using hc
      simp only [accumulate, hk, this]
      rfl

/-- A capture that completes changes its window's entry, its context, the sweep's restaled mark and
the link's reply side only. -/
theorem completeCapture_frame (s : State) (w : Fin 16) (k : Capture) :
    ∃ ws cs sw ds sl rq, s.completeCapture w k =
      { s with windows := ws, captures := cs, sweep := sw, deferred := ds, slots := sl,
               replyQueue := rq } := by
  have done_ (u : State) (p : List Byte) (hu : ∃ ws sw, u = { s with windows := ws, sweep := sw }) :
      ∃ ws cs sw ds sl rq, (u.setCapture w none).endActivity w .ok p =
        { s with windows := ws, captures := cs, sweep := sw, deferred := ds, slots := sl,
                 replyQueue := rq } := by
    obtain ⟨ws, sw, rfl⟩ := hu
    obtain ⟨ds, sl, rq, h⟩ := endActivity_frame
      (setCapture { s with windows := ws, sweep := sw } w none) w .ok p
    rw [h]
    exact ⟨_, _, sw, ds, sl, rq, rfl⟩
  unfold completeCapture
  dsimp only
  split
  · exact done_ _ _ ⟨_, _, rfl⟩
  · exact done_ _ _ ⟨_, s.sweep, rfl⟩

/-- A sample at the capture changes what a completion changes. -/
theorem accumulate_frame (s : State) (w : Fin 16) (x : Sample) :
    ∃ ws cs sw ds sl rq, s.accumulate w x =
      { s with windows := ws, captures := cs, sweep := sw, deferred := ds, slots := sl,
               replyQueue := rq } := by
  rcases s.accumulate_cases w x with ⟨k, _, _, _, h⟩ | ⟨k, _, _, _, h⟩ | ⟨_, h⟩
  · rw [h]
    exact s.completeCapture_frame w _
  · exact ⟨s.windows, _, s.sweep, s.deferred, s.slots, s.replyQueue, h⟩
  · exact ⟨s.windows, s.captures, s.sweep, s.deferred, s.slots, s.replyQueue, h⟩

/-- Samples handed on touch the consumers, the window's entry and the link's notices and replies only:
no table entry, tag, turn, fault or timebase. -/
theorem handSamples_frame (s : State) (w : Fin 16) (xs : List Sample) :
    ∃ st m ns l ws cs sw ds sl rq, s.handSamples w xs =
      { s with stats := st, monitors := m, notices := ns, lost := l, windows := ws, captures := cs,
               sweep := sw, deferred := ds, slots := sl, replyQueue := rq } := by
  suffices hall : ∀ (stamp : Word) (s : State), ∃ st m ns l ws cs sw ds sl rq,
      xs.foldl (fun t x => t.handSample w stamp x) s =
        { s with stats := st, monitors := m, notices := ns, lost := l, windows := ws, captures := cs,
                 sweep := sw, deferred := ds, slots := sl, replyQueue := rq } from hall s.tbValue s
  intro stamp
  induction xs with
  | nil =>
    intro s
    exact ⟨s.stats, s.monitors, s.notices, s.lost, s.windows, s.captures, s.sweep, s.deferred,
      s.slots, s.replyQueue, rfl⟩
  | cons x xs ih =>
    intro s
    rw [List.foldl_cons, handSample]
    obtain ⟨st, h1⟩ := s.countSample_frame w x
    obtain ⟨m, ns, l, h2⟩ := watch_frame { s with stats := st } w stamp x
    obtain ⟨ws, cs, sw, ds, sl, rq, h3⟩ := accumulate_frame
      { s with stats := st, monitors := m, notices := ns, lost := l } w x
    rw [h1, h2, h3]
    obtain ⟨st', m', ns', l', ws', cs', sw', ds', sl', rq', h4⟩ := ih
      { s with stats := st, monitors := m, notices := ns, lost := l, windows := ws, captures := cs,
               sweep := sw, deferred := ds, slots := sl, replyQueue := rq }
    exact ⟨st', m', ns', l', ws', cs', sw', ds', sl', rq', h4⟩

/-! ### The sweep unit (R117 to R126) -/

/-- A sweep that stops answers its registered SWEEP, idles its window, and empties the context and the
fairness count. -/
theorem endSweep_of_registered {s : State} {c : Sweep} {d : DeferredEntry}
    (h : Registered s c.window d) (status : Status) (payload : List Byte) :
    s.endSweep c status payload =
      { answeredDeferred
          (s.setWindow c.window { s.windows[c.window] with activity := .idle, deferred := none }) d
          status payload with
        sweep := none, fairness := 0 } := by
  rw [endSweep, endActivity_of_registered h]

/-- A sweep that stops changes its window's entry, the context, the fairness count and the link's reply
side only. -/
theorem endSweep_frame (s : State) (c : Sweep) (status : Status) (payload : List Byte) :
    ∃ ds sl rq, s.endSweep c status payload =
      { s with
        windows := s.windows.set c.window
          { s.windows[c.window] with activity := .idle, deferred := none }
        deferred := ds, slots := sl, replyQueue := rq, sweep := none, fairness := 0 } := by
  obtain ⟨ds, sl, rq, h⟩ := s.endActivity_frame c.window status payload
  exact ⟨ds, sl, rq, by rw [endSweep, h]⟩

/-- A completed sweep changes what a sweep that stops changes. -/
theorem completeSweep_frame (s : State) (c : Sweep) :
    ∃ ws ds sl rq, s.completeSweep c =
      { s with windows := ws, deferred := ds, slots := sl, replyQueue := rq, sweep := none,
               fairness := 0 } := by
  unfold completeSweep
  dsimp only
  split
  · obtain ⟨ds, sl, rq, h⟩ := endSweep_frame
      (s.setWindow c.window { s.windows[c.window] with stale := false }) c .ok (u32 c.done)
    exact ⟨_, ds, sl, rq, h⟩
  · obtain ⟨ds, sl, rq, h⟩ := s.endSweep_frame c .ok (u32 c.done)
    exact ⟨_, ds, sl, rq, h⟩

/-- An aborted sweep changes what a sweep that stops changes, and may use up a free value. -/
theorem abortSweep_frame (s : State) (c : Sweep) :
    ∃ ws ds sl rq fc, s.abortSweep c =
      { s with windows := ws, deferred := ds, slots := sl, replyQueue := rq, sweep := none,
               fairness := 0, freeCount := fc } := by
  obtain ⟨ds, sl, rq, h⟩ := s.endSweep_frame c .aborted (addressField s.freeCount c.cursor ++ u32 c.done)
  exact ⟨_, ds, sl, rq, _, by rw [abortSweep, h]⟩

/-- An answer of a SWEEP tag changes the sweep unit's and the link's reply side only. -/
theorem answerSweep_frame (s : State) (t : Fin 64) (st : HostStatus) (words : List Word) :
    ∃ ws ds sl rq sw fa fc, s.answerSweep t st words =
      { s with windows := ws, deferred := ds, slots := sl, replyQueue := rq, sweep := sw,
               fairness := fa, freeCount := fc } := by
  have same (sw : Option Sweep) : ∃ ws ds sl rq sw' fa fc, { s with sweep := sw } =
      { s with windows := ws, deferred := ds, slots := sl, replyQueue := rq, sweep := sw',
               fairness := fa, freeCount := fc } :=
    ⟨s.windows, s.deferred, s.slots, s.replyQueue, sw, s.fairness, s.freeCount, rfl⟩
  have fail_ (c : Sweep) (r : ReqKind) (x : HostStatus) : ∃ ws ds sl rq sw fa fc,
      s.failSweep c r x =
        { s with windows := ws, deferred := ds, slots := sl, replyQueue := rq, sweep := sw,
                 fairness := fa, freeCount := fc } := by
    obtain ⟨ds, sl, rq, h⟩ := s.endSweep_frame c .failed
      (addressField s.freeCount c.cursor ++ u32 c.done
        ++ [if r = .read then 0 else 1, if x = .memerr then 0 else 1])
    exact ⟨_, ds, sl, rq, none, 0, s.freeCount, h⟩
  have write_ (c : Sweep) : ∃ ws ds sl rq sw fa fc, s.answerSweepWrite c st =
      { s with windows := ws, deferred := ds, slots := sl, replyQueue := rq, sweep := sw,
               fairness := fa, freeCount := fc } := by
    unfold answerSweepWrite
    generalize (if st = .okay then
      { c with done := c.done + 1, cursor := c.cursor + 64, tag := none } else c) = c'
    dsimp only
    split
    · obtain ⟨ws, ds, sl, rq, fc, h⟩ := s.abortSweep_frame c'
      exact ⟨ws, ds, sl, rq, none, 0, fc, h⟩
    · split
      · exact fail_ _ _ _
      · split
        · exact same _
        · obtain ⟨ws, ds, sl, rq, h⟩ := s.completeSweep_frame c'
          exact ⟨ws, ds, sl, rq, none, 0, s.freeCount, h⟩
  have read_ (c : Sweep) : ∃ ws ds sl rq sw fa fc, s.answerSweepRead c st words =
      { s with windows := ws, deferred := ds, slots := sl, replyQueue := rq, sweep := sw,
               fairness := fa, freeCount := fc } := by
    unfold answerSweepRead
    split
    · exact same _
    · exact fail_ _ _ _
  unfold answerSweep
  split
  · exact same s.sweep
  · split
    · split
      · exact read_ _
      · exact write_ _
      · exact same s.sweep
    · exact same s.sweep

/-! ### The engine's draw (R46) -/

/-- A draw changes the tags only. -/
theorem drawTags_frame (s : State) (l : List (Fin 64 × TagRecord)) :
    ∃ ts, s.drawTags l = { s with tags := ts } := by
  unfold drawTags
  induction l generalizing s with
  | nil => exact ⟨s.tags, rfl⟩
  | cons p l ih =>
    obtain ⟨ts, h⟩ := ih (s.setTag p.1 (.inUse p.2))
    exact ⟨ts, h⟩

end State

end Sys2Proof.Machine
end

