-- ==== Sys2Proof/Laws/Deadlines.lean ====
section
/-! SUPPORT. What a deadline's passing can do, and which deadlines stand afterwards (R53, R138, R143,
R159). -/

namespace Sys2Proof.Machine

namespace State

/-! ### A D response deadline (R53) -/

/-- An expiry quarantines its tag, and touches the faults, its entry, the sweep unit and the link's reply
side besides. -/
theorem expireTag_frame (s : State) (t : Fin 64) (r : TagRecord) :
    ∃ fl ov al ns l en ws sw ds sl rq fa fc, s.expireTag t r =
      { s with tags := s.tags.set t (.quarantined r), faults := fl, overflow := ov, alert := al,
               notices := ns, lost := l, entries := en, windows := ws, sweep := sw, deferred := ds,
               slots := sl, replyQueue := rq, fairness := fa, freeCount := fc } := by
  obtain ⟨fl, ov, al, ns, l, hf⟩ :=
    (s.setTag t (.quarantined r)).offerFault_frame (tagFault .expired r)
  unfold expireTag
  rw [hf]
  dsimp only
  split
  · rename_i i _ _
    obtain ⟨en, ws, sw, h⟩ := answerEntry_frame { s.setTag t (.quarantined r) with
      faults := fl, overflow := ov, alert := al, notices := ns, lost := l } i .expired
    exact ⟨fl, ov, al, ns, l, en, ws, sw, s.deferred, s.slots, s.replyQueue, s.fairness, s.freeCount, h⟩
  · obtain ⟨ws, ds, sl, rq, sw, fa, fc, h⟩ := answerSweep_frame { s.setTag t (.quarantined r) with
      faults := fl, overflow := ov, alert := al, notices := ns, lost := l } t .expired []
    exact ⟨fl, ov, al, ns, l, s.entries, ws, sw, ds, sl, rq, fa, fc, h⟩

/-- A deadline not reached does not pass. -/
theorem passTag_of_ahead {s : State} {t : Fin 64} (h : ∀ d ∈ s.tagDeadline t, s.usBase < d) :
    s.passTag t = s := by
  unfold tagDeadline at h
  unfold passTag
  split
  · rename_i r hr
    rw [hr] at h
    cases hi : r.issued <;> cases hd : r.deadline <;> simp_all
  · rfl

/-- The passing of a tag's deadline leaves that tag without one when it was reached, and changes no other
deadline, nor the time. -/
theorem passTag_keeps (s : State) (t : Fin 64) :
    (∀ u : Fin 64, (s.passTag t).tagDeadline u =
      (s.tagDeadline u).filter fun d => u ≠ t || s.usBase < d)
    ∧ (s.passTag t).usBase = s.usBase ∧ (s.passTag t).captures = s.captures
    ∧ (s.passTag t).rx = s.rx ∧ (s.passTag t).phase = s.phase ∧ (s.passTag t).tbValue = s.tbValue
    ∧ (s.passTag t).tbSource = s.tbSource := by
  by_cases h : ∀ d ∈ s.tagDeadline t, s.usBase < d
  · rw [passTag_of_ahead h]
    refine ⟨fun u => ?_, rfl, rfl, rfl, rfl, rfl, rfl⟩
    cases hu : s.tagDeadline u with
    | none => rfl
    | some d =>
      by_cases ht : u = t
      · subst ht
        simp [Option.filter, h d hu]
      · simp [Option.filter, ht]
  · obtain ⟨d, hd, hb⟩ : ∃ d, s.tagDeadline t = some d ∧ d ≤ s.usBase := by
      simpa using h
    cases hr : s.tags[t] with
    | free => simp only [tagDeadline, hr] at hd; cases hd
    | quarantined r => simp only [tagDeadline, hr] at hd; cases hd
    | inUse r =>
      obtain ⟨hi, hl⟩ : r.issued = true ∧ r.deadline = some d := by
        simpa only [tagDeadline, hr, Option.ite_none_right_eq_some] using hd
      have hp : s.passTag t = (s.expireTag t r).offerResponse := by
        simp [passTag, hr, hi, hl, hb]
      obtain ⟨fl, ov, al, ns, l, en, ws, sw, ds, sl, rq, fa, fc, he⟩ := s.expireTag_frame t r
      obtain ⟨o, ho⟩ := (s.expireTag t r).offerResponse_frame
      rw [hp, ho, he]
      refine ⟨fun u => ?_, rfl, rfl, rfl, rfl, rfl, rfl⟩
      by_cases ht : u = t
      · subst ht
        rw [hd]
        simp [tagDeadline, Option.filter, Nat.not_lt.2 hb]
      · have hk : (s.expireTag t r).tags[u] = s.tags[u] := by
          rw [he]
          exact get_set_ne s.tags _ (Ne.symm ht)
        have hf (o : Option Nat) : o.filter (fun d => u ≠ t || s.usBase < d) = o := by
          cases o <;> simp [Option.filter, ht]
        rw [hf]
        rw [he] at hk
        simp only [tagDeadline, hk]

/-! ### A capture's deadline (R138) -/

/-- A capture's deadline not reached does not pass. -/
theorem passCapture_of_ahead {s : State} {w : Fin 16}
    (h : ∀ k ∈ s.captures[w], k.count < 2 ^ k.n → s.usBase < 1000 * k.deadline) :
    s.passCapture w = s := by
  unfold passCapture
  split
  · rfl
  · rename_i k hk
    split
    · rename_i hc
      rw [Bool.and_eq_true, decide_eq_true_eq, decide_eq_true_eq, msBase] at hc
      exact absurd (h k hk hc.2) (by have := hc.1; omega)
    · rfl

/-- The passing of a capture's deadline empties its context when it was reached, and changes no other
deadline, nor the time. -/
theorem passCapture_keeps (s : State) (w : Fin 16) :
    (∀ v : Fin 16, (s.passCapture w).captures[v] =
      (s.captures[v]).filter fun k => v ≠ w || 2 ^ k.n ≤ k.count || s.usBase < 1000 * k.deadline)
    ∧ (s.passCapture w).usBase = s.usBase ∧ (s.passCapture w).tags = s.tags
    ∧ (s.passCapture w).rx = s.rx ∧ (s.passCapture w).phase = s.phase
    ∧ (s.passCapture w).tbValue = s.tbValue ∧ (s.passCapture w).tbSource = s.tbSource := by
  by_cases h : ∀ k ∈ s.captures[w], k.count < 2 ^ k.n → s.usBase < 1000 * k.deadline
  · rw [passCapture_of_ahead h]
    refine ⟨fun v => ?_, rfl, rfl, rfl, rfl, rfl, rfl⟩
    cases hv : s.captures[v] with
    | none => rfl
    | some k =>
      by_cases hw : v = w
      · subst hw
        have := h k hv
        by_cases hc : k.count < 2 ^ k.n
        · simp [Option.filter, this hc]
        · simp [Option.filter, Nat.le_of_not_lt hc]
      · simp [Option.filter, hw]
  · obtain ⟨k, hk, hc, hd⟩ : ∃ k, s.captures[w] = some k ∧ k.count < 2 ^ k.n
        ∧ 1000 * k.deadline ≤ s.usBase := by
      simpa using h
    have hm : k.deadline ≤ s.msBase := by
      unfold msBase
      omega
    have hp : s.passCapture w = (s.setCapture w none).endActivity w .timeout (u16 k.count) := by
      unfold passCapture
      rw [hk]
      simp [hm, hc]
    obtain ⟨ds, sl, rq, he⟩ := (s.setCapture w none).endActivity_frame w .timeout (u16 k.count)
    rw [hp, he]
    refine ⟨fun v => ?_, rfl, rfl, rfl, rfl, rfl, rfl⟩
    show (s.captures.set w none)[v] = _
    by_cases hv : v = w
    · subst hv
      rw [get_set_self, hk]
      simp [Option.filter, Nat.not_le.2 hc, Nat.not_lt.2 hd]
    · rw [get_set_ne _ _ (Ne.symm hv)]
      cases s.captures[v] <;> simp [Option.filter, hv]

/-! ### The inter-byte gap (R159) -/

/-- A gap not reached does not pass. -/
theorem passGap_of_ahead {s : State} (h : s.rx.state ≠ .hunt → s.usBase < s.rx.lastAt + 2000) :
    s.passGap = s := by
  unfold passGap
  split
  · rename_i hc
    simp only [ne_eq, decide_not, Bool.and_eq_true, Bool.not_eq_true', decide_eq_false_iff_not,
      decide_eq_true_eq] at hc
    have := h hc.1
    omega
  · rfl

/-- A gap reached discards its packet. -/
theorem passGap_of_reached {s : State} (h : s.rx.state ≠ .hunt) (ht : s.rx.lastAt + 2000 ≤ s.usBase) :
    s.passGap = s.endGap := by
  simp [passGap, h, ht]

/-- The passing of a gap leaves a receiver in HUNT or with its 2 ms still to come, and changes no
deadline, nor the time. -/
theorem passGap_keeps (s : State) :
    (s.passGap.rx.state ≠ .hunt → s.usBase < s.passGap.rx.lastAt + 2000)
    ∧ s.passGap.usBase = s.usBase ∧ s.passGap.tags = s.tags ∧ s.passGap.captures = s.captures
    ∧ s.passGap.phase = s.phase ∧ s.passGap.tbValue = s.tbValue
    ∧ s.passGap.tbSource = s.tbSource := by
  by_cases h : s.rx.state ≠ .hunt → s.usBase < s.rx.lastAt + 2000
  · rw [passGap_of_ahead h]
    exact ⟨h, rfl, rfl, rfl, rfl, rfl, rfl⟩
  · obtain ⟨hs, hl⟩ : s.rx.state ≠ .hunt ∧ s.rx.lastAt + 2000 ≤ s.usBase := by
      simpa using h
    rw [passGap_of_reached hs hl]
    exact ⟨fun hn => absurd rfl hn, rfl, rfl, rfl, rfl, rfl, rfl⟩

/-! ### All of them (R143) -/

/-- What passes, in order. -/
theorem passDeadlines_eq (s : State) : s.passDeadlines =
    ((List.finRange 16).foldl passCapture ((List.finRange 64).foldl passTag s)).passGap := by
  delta passDeadlines
  with_reducible rfl

/-- With no deadline reached none passes. -/
theorem passDeadlines_of_ahead {s : State} (h : DeadlinesFrom s (s.usBase + 1)) :
    s.passDeadlines = s := by
  obtain ⟨ht, hc, hg⟩ := h
  have h1 (ts : List (Fin 64)) : ts.foldl passTag s = s := by
    induction ts with
    | nil => rfl
    | cons t ts ih => rw [List.foldl_cons, passTag_of_ahead (ht t), ih]
  have h2 (ws : List (Fin 16)) : ws.foldl passCapture s = s := by
    induction ws with
    | nil => rfl
    | cons w ws ih => rw [List.foldl_cons, passCapture_of_ahead (hc w), ih]
  rw [passDeadlines_eq, h1, h2, passGap_of_ahead hg]

/-- The passing of the tags' deadlines leaves none reached among the tags listed, and changes no other
deadline, nor the time. -/
theorem passTags_keeps (s : State) (ts : List (Fin 64)) :
    let t := ts.foldl passTag s
    (∀ u : Fin 64, t.tagDeadline u = (s.tagDeadline u).filter fun d => u ∉ ts || s.usBase < d)
    ∧ t.usBase = s.usBase ∧ t.captures = s.captures ∧ t.rx = s.rx ∧ t.phase = s.phase
    ∧ t.tbValue = s.tbValue ∧ t.tbSource = s.tbSource := by
  induction ts generalizing s with
  | nil =>
    refine ⟨fun u => ?_, rfl, rfl, rfl, rfl, rfl, rfl⟩
    cases hu : s.tagDeadline u <;> simp [hu, Option.filter]
  | cons t ts ih =>
    obtain ⟨h1, h2, h3, h4, h5, h6, h7⟩ := s.passTag_keeps t
    obtain ⟨g1, g2, g3, g4, g5, g6, g7⟩ := ih (s.passTag t)
    refine ⟨fun u => ?_, g2.trans h2, g3.trans h3, g4.trans h4, g5.trans h5, g6.trans h6, g7.trans h7⟩
    rw [List.foldl_cons, g1, h1, h2]
    cases s.tagDeadline u with
    | none => rfl
    | some d =>
      by_cases hd : s.usBase < d <;> by_cases hu : u = t <;> by_cases hm : u ∈ ts <;>
        simp [Option.filter, hd, hu, hm]

/-- The passing of the captures' deadlines leaves none reached among the windows listed, and changes no
other deadline, nor the time. -/
theorem passCaptures_keeps (s : State) (ws : List (Fin 16)) :
    let t := ws.foldl passCapture s
    (∀ v : Fin 16, t.captures[v] = (s.captures[v]).filter fun k =>
      v ∉ ws || 2 ^ k.n ≤ k.count || s.usBase < 1000 * k.deadline)
    ∧ t.usBase = s.usBase ∧ t.tags = s.tags ∧ t.rx = s.rx ∧ t.phase = s.phase
    ∧ t.tbValue = s.tbValue ∧ t.tbSource = s.tbSource := by
  induction ws generalizing s with
  | nil =>
    refine ⟨fun v => ?_, rfl, rfl, rfl, rfl, rfl, rfl⟩
    rw [List.foldl_nil]
    cases s.captures[v] <;> simp [Option.filter]
  | cons w ws ih =>
    obtain ⟨h1, h2, h3, h4, h5, h6, h7⟩ := s.passCapture_keeps w
    obtain ⟨g1, g2, g3, g4, g5, g6, g7⟩ := ih (s.passCapture w)
    refine ⟨fun v => ?_, g2.trans h2, g3.trans h3, g4.trans h4, g5.trans h5, g6.trans h6, g7.trans h7⟩
    rw [List.foldl_cons, g1, h1, h2]
    cases s.captures[v] with
    | none => rfl
    | some k =>
      by_cases hd : s.usBase < 1000 * k.deadline <;> by_cases hc : 2 ^ k.n ≤ k.count <;>
        by_cases hv : v = w <;> by_cases hm : v ∈ ws <;> simp [Option.filter, hd, hc, hv, hm]

/-- When every deadline reached has passed, none that stands is reached, and the time is as before. -/
theorem passDeadlines_keeps (s : State) :
    DeadlinesFrom s.passDeadlines (s.usBase + 1) ∧ s.passDeadlines.usBase = s.usBase
    ∧ s.passDeadlines.phase = s.phase ∧ s.passDeadlines.tbValue = s.tbValue
    ∧ s.passDeadlines.tbSource = s.tbSource := by
  obtain ⟨a1, a2, a3, a4, a5, a6, a7⟩ := s.passTags_keeps (List.finRange 64)
  obtain ⟨b1, b2, b3, b4, b5, b6, b7⟩ :=
    ((List.finRange 64).foldl passTag s).passCaptures_keeps (List.finRange 16)
  obtain ⟨c1, c2, c3, c4, c5, c6, c7⟩ :=
    ((List.finRange 16).foldl passCapture ((List.finRange 64).foldl passTag s)).passGap_keeps
  rw [← passDeadlines_eq] at c1 c2 c3 c4 c5 c6 c7
  refine ⟨⟨fun t d hd => ?_, fun w k hk hc => ?_, fun hs => ?_⟩, c2.trans (b2.trans a2),
    c5.trans (b5.trans a5), c6.trans (b6.trans a6), c7.trans (b7.trans a7)⟩
  · have ht : s.passDeadlines.tagDeadline t = ((List.finRange 64).foldl passTag s).tagDeadline t := by
      simp only [tagDeadline, c3, b3]
    rw [ht, a1] at hd
    simpa using (Option.mem_filter_iff.1 hd).2
  · rw [c4, b1, a3, a2] at hk
    have := (Option.mem_filter_iff.1 hk).2
    rw [decide_eq_false (by simp), Bool.false_or, Bool.or_eq_true, decide_eq_true_eq,
      decide_eq_true_eq] at this
    exact this.resolve_left (Nat.not_le.2 hc)
  · rw [b2, a2] at c1
    exact c1 hs

/-! ### The events of a step, in an order (R143, R172) -/

/-- An event taken does not change the time, nor what the timebase counts. -/
theorem takeEvent_keeps (s : State) (e : StepEvent) :
    (s.takeEvent e).usBase = s.usBase ∧ (s.takeEvent e).phase = s.phase
    ∧ (s.takeEvent e).tbValue = s.tbValue ∧ (s.takeEvent e).tbSource = s.tbSource := by
  cases e with
  | expiry t =>
    obtain ⟨_, h1, _, _, h2, h3, h4⟩ := s.passTag_keeps t
    exact ⟨h1, h2, h3, h4⟩
  | captureDeadline w =>
    obtain ⟨_, h1, _, _, h2, h3, h4⟩ := s.passCapture_keeps w
    exact ⟨h1, h2, h3, h4⟩
  | interByteGap =>
    obtain ⟨_, h1, _, _, h2, h3, h4⟩ := s.passGap_keeps
    exact ⟨h1, h2, h3, h4⟩
  | lineBreak =>
    show s.detectBreak.usBase = _ ∧ s.detectBreak.phase = _ ∧ s.detectBreak.tbValue = _
      ∧ s.detectBreak.tbSource = _
    unfold detectBreak
    split <;> exact ⟨rfl, rfl, rfl, rfl⟩

/-- Events taken do not change the time, nor what the timebase counts. -/
theorem takeEvents_keeps (s : State) (es : List StepEvent) :
    let t := es.foldl takeEvent s
    t.usBase = s.usBase ∧ t.phase = s.phase ∧ t.tbValue = s.tbValue ∧ t.tbSource = s.tbSource := by
  induction es generalizing s with
  | nil => exact ⟨rfl, rfl, rfl, rfl⟩
  | cons e es ih =>
    obtain ⟨h1, h2, h3, h4⟩ := s.takeEvent_keeps e
    obtain ⟨g1, g2, g3, g4⟩ := ih (s.takeEvent e)
    exact ⟨g1.trans h1, g2.trans h2, g3.trans h3, g4.trans h4⟩

/-- With no deadline reached none of the events named but a BREAK changes anything. -/
theorem takeEvents_of_ahead {s : State} (h : DeadlinesFrom s (s.usBase + 1)) {es : List StepEvent}
    (hb : .lineBreak ∉ es) : es.foldl takeEvent s = s := by
  induction es with
  | nil => rfl
  | cons e es ih =>
    rw [List.mem_cons, not_or] at hb
    have he : s.takeEvent e = s := by
      cases e with
      | expiry t => exact passTag_of_ahead (h.1 t)
      | captureDeadline w => exact passCapture_of_ahead (h.2.1 w)
      | interByteGap => exact passGap_of_ahead h.2.2
      | lineBreak => exact absurd rfl hb.1
    rw [List.foldl_cons, he, ih hb.2]

end State

/-- A run of commands each of which answers a next state. -/
theorem runAll_of_next (s : State) (cs : List Instr) (g : State → Instr → State)
    (h : ∀ (s : State), ∀ c ∈ cs, exec c s = .next (g s c)) : runAll s cs = cs.foldl g s := by
  unfold runAll
  induction cs generalizing s with
  | nil => rfl
  | cons c cs ih =>
    rw [List.foldl_cons, List.foldl_cons, h s c List.mem_cons_self]
    exact ih _ fun s c hc => h s c (List.mem_cons_of_mem _ hc)

/-- The deadlines pass as their rows sent one after another. -/
theorem runAll_deadlineRows (s : State) : runAll s deadlineRows = s.passDeadlines := by
  rw [runAll_of_next s deadlineRows fun s c =>
    match c with
    | .expiry t => s.passTag t
    | .captureDeadline w => s.passCapture w
    | .interByteGap => s.passGap
    | _ => s]
  · rw [deadlineRows, List.foldl_append, List.foldl_append, List.foldl_map, List.foldl_map,
      State.passDeadlines_eq]
    simp only [List.foldl_cons, List.foldl_nil]
  · intro s c hc
    simp only [deadlineRows, List.mem_append, List.mem_map, List.mem_singleton] at hc
    rcases hc with (⟨t, _, rfl⟩ | ⟨w, _, rfl⟩) | rfl <;> rfl

/-- A run of commands, and then another. -/
theorem runAll_append (s : State) (cs ds : List Instr) :
    runAll s (cs ++ ds) = runAll (runAll s cs) ds := by
  unfold runAll
  rw [List.foldl_append]

/-- The events of a step are taken as their rows sent one after another. -/
theorem runAll_rows (s : State) (es : List StepEvent) :
    runAll s (es.map eventRow) = es.foldl State.takeEvent s := by
  induction es generalizing s with
  | nil => rw [runAll, List.map_nil, List.foldl_nil, List.foldl_nil]
  | cons e es ih =>
    have he : exec (eventRow e) s = .next (s.takeEvent e) := by
      cases e <;> rfl
    rw [List.map_cons, List.foldl_cons, ← ih, ← List.singleton_append, runAll_append]
    congr 1
    unfold runAll
    rw [List.foldl_cons, List.foldl_nil, he]

end Sys2Proof.Machine
end

