-- ==== Sys2Proof/Laws/Link.lean ====
section
/-! SUPPORT. What the dispatcher does with a command, case by case (R162 to R164), and the two ways a
unit answers it. -/

namespace Sys2Proof.Machine

namespace State

/-- The free slot found is free, and no lower one is (R166). -/
theorem freeSlot_eq_some {s : State} {k : Fin 16} :
    s.freeSlot = some k ↔ s.slots[k] = .free ∧ ∀ j : Fin 16, j < k → s.slots[j] ≠ .free := by
  constructor
  · intro h
    refine ⟨by simpa using List.find?_some h, fun j hj hf => ?_⟩
    obtain ⟨_, as, bs, hl, hn⟩ := List.find?_eq_some_iff_append.1 h
    have hs := List.pairwise_lt_finRange 16
    rw [hl, List.pairwise_append] at hs
    have hj' : j ∈ as ++ k :: bs := hl ▸ List.mem_finRange j
    rcases List.mem_append.1 hj' with ha | hb
    · have := hn j ha
      simp [hf] at this
    · rcases List.mem_cons.1 hb with rfl | hb
      · exact lt_irrefl _ hj
      · exact lt_asymm hj (List.rel_of_pairwise_cons hs.2.1 hb)
  · rintro ⟨hf, hl⟩
    cases hk : s.freeSlot with
    | none =>
      have := List.find?_eq_none.1 hk k (List.mem_finRange k)
      simp [hf] at this
    | some j =>
      have hj : s.slots[j] = .free := by simpa using List.find?_some hk
      obtain ⟨_, as, bs, hl', hn⟩ := List.find?_eq_some_iff_append.1 hk
      rcases lt_trichotomy j k with h | h | h
      · exact absurd hj (hl j h)
      · rw [h]
      · exfalso
        have hs := List.pairwise_lt_finRange 16
        rw [hl', List.pairwise_append] at hs
        have hk' : k ∈ as ++ j :: bs := hl' ▸ List.mem_finRange k
        rcases List.mem_append.1 hk' with ha | hb
        · have := hn k ha
          simp [hf] at this
        · rcases List.mem_cons.1 hb with rfl | hb
          · exact lt_irrefl _ h
          · exact lt_asymm h (List.rel_of_pairwise_cons hs.2.1 hb)

/-- A closed link, or a BREAK, takes no command (R170, R171). -/
theorem command_of_closed {s : State} (h : s.linkReceives = false) (unit trn : Byte)
    (take : Ctx → State → State) : s.command unit trn take = s := by
  simp only [command, h, Bool.false_eq_true, if_false]

/-- A command the link takes reaches its unit with its slot HELD (R162, R163). -/
theorem command_of_takes {s : State} {trn : Byte} {k : Fin 16} (h : LinkTakes s trn k) (unit : Byte)
    (take : Ctx → State → State) :
    s.command unit trn take = take ⟨unit, trn, k⟩ (s.seeHigh.setSlot k (.held trn unit)) := by
  obtain ⟨hp, hb, h0, h255, hf, hl, hd⟩ := h
  have hr : s.linkReceives = true := by simp [linkReceives, hp, hb]
  have hk : s.freeSlot = some k := freeSlot_eq_some.2 ⟨hf, hl⟩
  have ht : s.trnPending trn = false := by
    simpa [trnPending] using hd
  have ht0 : (decide (trn = 0) || decide (trn = 255)) = false := by
    rw [decide_eq_false h0, decide_eq_false h255]
    rfl
  simp only [command, hr, if_true, dispatch, ht0, Bool.false_eq_true, if_false, hk, ht]

/-- What a command changes at the dispatcher before its unit acts: a counter, or its slot, and that
the line was high (R157, R161, R162). -/
theorem dispatch_cases (s : State) (unit trn : Byte) (take : Ctx → State → State) :
    ((trn = 0 ∨ trn = 255) ∧ s.dispatch unit trn take =
        { s.seeHigh with counters := { s.counters with badTrn := satInc 65535 s.counters.badTrn } })
    ∨ (s.freeSlot = none ∧ s.dispatch unit trn take =
        { s.seeHigh with counters := { s.counters with overrun := satInc 65535 s.counters.overrun } })
    ∨ (∃ k, s.slots[k] = .free ∧ s.trnPending trn = true ∧ s.dispatch unit trn take =
        (s.seeHigh.setSlot k (.held trn unit)).refuse ⟨unit, trn, k⟩ .duplicate)
    ∨ (∃ k, s.slots[k] = .free ∧ s.trnPending trn = false ∧ s.dispatch unit trn take =
        take ⟨unit, trn, k⟩ (s.seeHigh.setSlot k (.held trn unit))) := by
  by_cases ht : trn = 0 ∨ trn = 255
  · left
    refine ⟨ht, ?_⟩
    have : (decide (trn = 0) || decide (trn = 255)) = true := by simpa using ht
    simp only [dispatch, this, if_true]
  · right
    have ht' : (decide (trn = 0) || decide (trn = 255)) = false := by simpa using ht
    cases hk : s.freeSlot with
    | none =>
      left
      exact ⟨rfl, by simp only [dispatch, ht', Bool.false_eq_true, if_false, hk]⟩
    | some k =>
      right
      have hf := (freeSlot_eq_some.1 hk).1
      cases hp : s.trnPending trn with
      | true =>
        left
        refine ⟨k, hf, rfl, ?_⟩
        simp only [dispatch, ht', Bool.false_eq_true, if_false, hk, hp, if_true]
      | false =>
        right
        refine ⟨k, hf, rfl, ?_⟩
        simp only [dispatch, ht', Bool.false_eq_true, if_false, hk, hp]

/-- An immediate reply fills the command's slot and joins the reply queue (R166, R167). -/
theorem reply_eq (s : State) (c : Ctx) (status : Status) (payload : List Byte) :
    s.reply c status payload =
      { s with
        slots := s.slots.set c.slot (.queued ⟨c.unit, status, c.trn, payload⟩)
        replyQueue := s.replyQueue ++ [c.slot] } := rfl

/-- A deferred command joins the dispatcher's list (R164). -/
theorem defer_eq (s : State) (c : Ctx) (code : Byte) :
    s.defer c code = { s with deferred := s.deferred ++ [⟨c.trn, c.unit, code, c.slot⟩] } := rfl

/-- An immediate reply in the slot just reserved. -/
theorem reply_of_held (s : State) (k : Fin 16) (unit trn : Byte) (status : Status)
    (payload : List Byte) :
    (s.seeHigh.setSlot k (.held trn unit)).reply ⟨unit, trn, k⟩ status payload =
      replied s k unit trn status payload := by
  simp only [reply_eq, replied, setSlot, seeHigh, set_set_self]

/-- A refusal in the slot just reserved. -/
theorem refuse_of_held (s : State) (k : Fin 16) (unit trn : Byte) (status : Status) :
    (s.seeHigh.setSlot k (.held trn unit)).refuse ⟨unit, trn, k⟩ status =
      replied s k unit trn status [] :=
  reply_of_held s k unit trn status []

/-- A deferral in the slot just reserved. -/
theorem defer_of_held (s : State) (k : Fin 16) (unit trn code : Byte) :
    (s.seeHigh.setSlot k (.held trn unit)).defer ⟨unit, trn, k⟩ code =
      registered s k unit trn code := rfl

end State

end Sys2Proof.Machine
end

