-- ==== Sys2Proof/Laws/Checks.lean ====
section
/-! SUPPORT. The checks a command meets, in the words of the statements: fields of payloads, R12's
columns, range tests, R39's checks, free tags, and how a command reaches its meaning; a received byte
and the gap; the bytes of a boot copy. -/

namespace Sys2Proof.Machine

/-! ### Fields (R190, R191) -/

/-- An append read as a number. -/
theorem toNat_append_eq {m n : Nat} (x : BitVec m) (y : BitVec n) :
    (x ++ y).toNat = x.toNat * 2 ^ n + y.toNat := by
  rw [BitVec.toNat_append, ← Nat.shiftLeft_add_eq_or_of_lt y.isLt, Nat.shiftLeft_eq]

/-- The two bytes of a two-byte field, put together again (R190). -/
theorem half_of_bytes (v : Half) :
    ((v >>> 8).setWidth 8 ++ v.setWidth 8 : BitVec 16) = v := by
  apply BitVec.eq_of_toNat_eq
  simp only [toNat_append_eq, BitVec.toNat_setWidth, BitVec.toNat_ushiftRight,
    Nat.shiftRight_eq_div_pow]
  omega

/-- The four bytes of a four-byte field, put together again (R190). -/
theorem word_of_bytes (v : Word) :
    (((v >>> 24).setWidth 8 ++ (v >>> 16).setWidth 8 : BitVec 16)
      ++ ((v >>> 8).setWidth 8 ++ v.setWidth 8 : BitVec 16) : BitVec 32) = v := by
  apply BitVec.eq_of_toNat_eq
  simp only [toNat_append_eq, BitVec.toNat_setWidth, BitVec.toNat_ushiftRight,
    Nat.shiftRight_eq_div_pow]
  omega

/-- An index field in range. -/
theorem decodeIndex_of_eq {b : Byte} {i : Fin 16} (h : b.toNat = i.val) : decodeIndex b = some i := by
  unfold decodeIndex
  rw [dif_pos (by omega)]
  congr 1
  exact Fin.ext h

/-- An index field out of range. -/
theorem decodeIndex_of_ge {b : Byte} (h : 16 ≤ b.toNat) : decodeIndex b = none := by
  unfold decodeIndex
  rw [dif_neg (by omega)]

/-- A window's unit code addresses that window. -/
theorem unitOf_windowUnit (w : Fin 16) : unitOf (windowUnit w) = some (.window w) := by
  revert w
  decide

/-- A packet that R192 defines is handed to its unit (R163). -/
theorem takePacket_of_defined {p : Packet} {u : UnitId} {n : Nat} (hu : unitOf p.unit = some u)
    (hl : commandLength u p.code = some n) (hp : p.payload.length = n) (c : Ctx) (s : State) :
    takePacket p c s = takeDefined u p c s := by
  simp only [takePacket, undefinedStatus, hu, hl, hp, if_true]

/-! ### R12's table -/

theorem condition_of_disabled {x : Window} (h : x.state = .disabled) : x.condition = .disabled := by
  unfold Window.condition
  rw [h]

theorem condition_of_draining {x : Window} (h : x.state = .draining) : x.condition = .draining := by
  unfold Window.condition
  rw [h]

theorem condition_of_idle {x : Window} (h : x.state = .enabled) (ha : x.activity = .idle) :
    x.condition = .idle := by
  unfold Window.condition
  rw [h, ha]

theorem condition_of_busy {x : Window} (h : x.state = .enabled) (ha : x.activity ≠ .idle) :
    x.condition = .busy := by
  unfold Window.condition
  rw [h]
  cases hx : x.activity <;> first | rfl | exact absurd hx ha

/-! ### Conditioning (R23, R33) -/

/-- A word holds a torn lane (R23). -/
theorem tornWord_iff (x : WriteWord) : tornWord x = true ↔ HasTornLane x := by
  have h : ∀ e : BitVec 4, (torn (laneEnables e).1 || torn (laneEnables e).2) = true ↔
      (e.getLsbD 0 ≠ e.getLsbD 1 ∨ e.getLsbD 2 ≠ e.getLsbD 3) := by decide
  exact h x.enables

/-- A conditioned burst has its length (R33). -/
theorem conditionBurst_length (d : WindowDef) (chans : List ChanRec) (ws : List WriteWord) :
    ∀ addr : Nat, (conditionBurst d chans addr ws).length = ws.length := by
  induction ws with
  | nil => exact fun _ => rfl
  | cons w ws ih => exact fun addr => congrArg Nat.succ (ih (addr + 4))

/-- Word j of a conditioned burst is word j conditioned at its own address (R33). -/
theorem conditionBurst_getElem? (d : WindowDef) (chans : List ChanRec) (ws : List WriteWord) :
    ∀ addr j : Nat, (conditionBurst d chans addr ws)[j]? =
      ws[j]?.map (conditionWord d chans (addr + 4 * j)) := by
  induction ws with
  | nil => exact fun _ _ => rfl
  | cons w ws ih =>
    intro addr j
    cases j with
    | zero => rfl
    | succ j =>
      simp only [conditionBurst, List.getElem?_cons_succ, ih]
      congr 2
      omega

/-! ### Ranges (R2, R9) -/

/-- Two ranges overlap when some address lies in both (R9). -/
theorem overlaps_iff (r t : Range) :
    r.overlaps t = true ↔ ∃ a, r.contains a = true ∧ t.contains a = true := by
  unfold Range.overlaps Range.contains
  simp only [decide_eq_true_eq, Bool.and_eq_true]
  constructor
  · intro h
    exact ⟨max r.lo t.lo, by omega⟩
  · rintro ⟨a, h⟩
    omega

/-- Two definitions meet when some address lies in a range of each (R9). -/
theorem meets_iff (d e : WindowDef) : d.meets e = true ↔
    ∃ a, d.ranges.any (·.contains a) = true ∧ e.ranges.any (·.contains a) = true := by
  unfold WindowDef.meets
  simp only [List.any_eq_true, overlaps_iff]
  constructor
  · rintro ⟨r, hr, t, ht, a, h1, h2⟩
    exact ⟨a, ⟨r, hr, h1⟩, ⟨t, ht, h2⟩⟩
  · rintro ⟨a, ⟨r, hr, h1⟩, ⟨t, ht, h2⟩⟩
    exact ⟨r, hr, t, ht, a, h1, h2⟩

/-- Definitions meet in either order (R9). -/
theorem meets_comm (d e : WindowDef) : d.meets e = e.meets d := by
  rw [Bool.eq_iff_iff, meets_iff, meets_iff]
  exact exists_congr fun a => and_comm

/-- An address lies in a range of a definition (R2). -/
theorem ranges_contains_iff (d : WindowDef) (a : Nat) : d.ranges.any (·.contains a) = true ↔
    (d.base.toNat ≤ a ∧ a < d.base.toNat + d.pages * 4096)
      ∨ d.mode = .storeBoth ∧ ∃ b, d.shadow = some b ∧ b.toNat ≤ a
        ∧ a < b.toNat + d.pages * 4096 := by
  unfold WindowDef.ranges WindowDef.main WindowDef.shadowRange
  cases hd : d.shadow <;> cases hm : d.mode <;> simp [Range.contains]

/-- The two range tests of an address, together (R2). -/
theorem inMain_or_inShadow (d : WindowDef) (a : Word) :
    (d.inMain a || d.inShadow a) = d.ranges.any (·.contains a.toNat) := by
  unfold WindowDef.inMain WindowDef.inShadow WindowDef.ranges
  cases d.shadowRange <;> simp

/-- An address lies in the main range (R2). -/
theorem inMain_iff (d : WindowDef) (a : Word) : d.inMain a = true ↔
    d.base.toNat ≤ a.toNat ∧ a.toNat < d.base.toNat + d.pages * 4096 := by
  unfold WindowDef.inMain Range.contains
  rw [Bool.and_eq_true, decide_eq_true_eq, decide_eq_true_eq]
  exact Iff.rfl

/-- An address lies in the shadow range (R2). -/
theorem inShadow_iff (d : WindowDef) (a : Word) : d.inShadow a = true ↔
    d.mode = .storeBoth ∧ d.shadow.any (fun b =>
      b.toNat ≤ a.toNat ∧ a.toNat < b.toNat + d.pages * 4096) = true := by
  unfold WindowDef.inShadow WindowDef.shadowRange Range.contains
  cases d.mode <;> cases d.shadow <;> simp

/-! ### Searches over a table -/

/-- A search over a table finds the one index that passes. -/
theorem find_of_unique {n : Nat} {p : Fin n → Bool} {m : Option (Fin n)}
    (h : ∀ w, m = some w ↔ p w = true) : (List.finRange n).find? p = m := by
  cases m with
  | none =>
    rw [List.find?_eq_none]
    intro w _ hw
    exact absurd ((h w).2 hw) (Option.some_ne_none w).symm
  | some v =>
    have hv := (h v).1 rfl
    cases hf : (List.finRange n).find? p with
    | none => exact absurd hv (List.find?_eq_none.1 hf v (List.mem_finRange v))
    | some u => exact ((h u).2 (List.find?_some hf)).symm

/-- A search over a table finds the lowest index that passes. -/
theorem find_of_lowest {n : Nat} {p : Fin n → Bool} {k : Fin n} (h : p k = true)
    (hl : ∀ j, j < k → p j = false) : (List.finRange n).find? p = some k := by
  cases hf : (List.finRange n).find? p with
  | none => exact absurd h (List.find?_eq_none.1 hf k (List.mem_finRange k))
  | some u =>
    have hu := List.find?_some hf
    obtain ⟨_, as, bs, hl', hn⟩ := List.find?_eq_some_iff_append.1 hf
    rcases lt_trichotomy u k with hlt | heq | hgt
    · exact absurd hu (by simp [hl u hlt])
    · rw [heq]
    · exfalso
      have hs := List.pairwise_lt_finRange n
      rw [hl', List.pairwise_append] at hs
      have hk : k ∈ as ++ u :: bs := hl' ▸ List.mem_finRange k
      rcases List.mem_append.1 hk with ha | hb
      · simpa [h] using hn k ha
      · rcases List.mem_cons.1 hb with rfl | hb
        · exact lt_irrefl _ hgt
        · exact lt_asymm hgt (List.rel_of_pairwise_cons hs.2.1 hb)

namespace State

/-! ### How a command reaches its meaning -/

/-- A window command passes its state check (R12). -/
theorem checked_of_none {s : State} {w : Fin 16} {k : WinCommand} {c : Ctx} {go : State}
    {x : Condition} (hx : s.windows[w].condition = x) (h : stateCheck k x = none) :
    s.checked w k c go = go := by
  unfold checked winCheck
  rw [hx, h]

/-- A window command is refused by its state check (R12). -/
theorem checked_of_some {s : State} {w : Fin 16} {k : WinCommand} {c : Ctx} {go : State}
    {x : Condition} {st : Status} (hx : s.windows[w].condition = x)
    (h : stateCheck k x = some st) : s.checked w k c go = s.refuse c st := by
  unfold checked winCheck
  rw [hx, h]

/-- An immediate reply after other changes, in the slot just reserved (R166, R167). -/
theorem reply_of_updated {s t u : State} {k : Fin 16} {unit trn : Byte} {x : Slot} {st : Status}
    {p : List Byte} (h : t = { u with slots := s.slots.set k x, rxHigh := true })
    (hu : u.slots = s.slots) :
    t.reply ⟨unit, trn, k⟩ st p = replied u k unit trn st p := by
  subst h
  simp only [reply_eq, replied, set_set_self, hu]

/-- A fault offered leaves the tables alone (R149). -/
theorem offerFault_keeps (s : State) (f : FaultInfo) :
    (s.offerFault f).entries = s.entries ∧ (s.offerFault f).windows = s.windows
      ∧ (s.offerFault f).sweep = s.sweep ∧ (s.offerFault f).deferred = s.deferred
      ∧ (s.offerFault f).captures = s.captures ∧ (s.offerFault f).tags = s.tags
      ∧ (s.offerFault f).freeCount = s.freeCount := by
  obtain ⟨_, _, _, _, _, h⟩ := offerFault_frame s f
  rw [h]
  exact ⟨rfl, rfl, rfl, rfl, rfl, rfl, rfl⟩

/-! ### Acceptance (R4, R7, R37, R39) -/

/-- Matching finds the one window it may find (R4). -/
theorem matchWindow_of_matchedBy {s : State} {a : Word} {m : Option (Fin 16)}
    (h : MatchedBy s a m) : s.matchWindow a = m := by
  refine find_of_unique fun w => ?_
  rw [h w, Bool.and_eq_true, decide_eq_true_eq, inMain_iff]

/-- The guard finds the one window it may find (R7). -/
theorem guardWindow_of_guardedBy {s : State} {a : Word} {m : Option (Fin 16)}
    (h : GuardedBy s a m) : s.guardWindow a = m := by
  refine find_of_unique fun w => ?_
  rw [h w, Bool.and_eq_true, decide_eq_true_eq, inShadow_iff]

/-- R39's checks as propositions. -/
theorem acceptanceCheck_eq (s : State) (r : HostRequest) : s.acceptanceCheck r =
    if r.addr.toNat % 4 ≠ 0 then some (.align, none)
    else if opLen r.op = 0 ∨ 16 < opLen r.op then some (.length, none)
    else if 4096 < r.addr.toNat % 4096 + 4 * opLen r.op then some (.boundary, none)
    else if opKind r.op = .write ∧ (s.guardWindow r.addr).isSome = true then
      some (.guard, s.guardWindow r.addr)
    else if (∃ x ∈ opWords r.op, HasTornLane x) ∧ (s.matchWindow r.addr).isSome = true then
      some (.torn, s.matchWindow r.addr)
    else none := by
  unfold acceptanceCheck
  simp only [Bool.or_eq_true, decide_eq_true_eq, Bool.and_eq_true, List.any_eq_true, tornWord_iff]

/-- A request the U port takes is accepted into the lowest FREE entry (R37). -/
theorem execAcceptance_of_accepts {s : State} {i : Fin 32} (h : Accepts s i) (r : HostRequest) :
    execAcceptance r s = .next (s.accept i r).offerResponse := by
  obtain ⟨hp, hi, hl, hc⟩ := h
  have hclear : s.counterClear = true := by
    simp only [counterClear, List.all_eq_true, Vector.mem_toList_iff, Vector.mem_iff_getElem]
    rintro x ⟨j, hj, rfl⟩
    cases he : s.entries[j] with
    | none => rfl
    | some e => simpa using hc ⟨j, hj⟩ e he
  have hfree : s.freeEntry = some i := by
    refine find_of_lowest (by rw [hi]; rfl) fun j hj => ?_
    cases he : s.entries[j] with
    | none => exact absurd he (hl j hj)
    | some e => rfl
  simp only [execAcceptance, hp, hclear, hfree, decide_true, Bool.and_self, if_true]

/-! ### Turns (R46, R67) -/

/-- The lowest free tag is drawn (R46). -/
theorem freeTags_take_one {s : State} {t : Fin 64} (h : LowestFree s t) :
    s.freeTags.take 1 = [t] := by
  obtain ⟨r, hr⟩ := freeTags_of_lowest h.1 h.2
  rw [hr]
  rfl

/-- The two lowest free tags are drawn (R46). -/
theorem freeTags_take_two {s : State} {t u : Fin 64} (h : LowestTwoFree s t u) :
    s.freeTags.take 2 = [t, u] := by
  obtain ⟨h1, h2, h3, h4⟩ := h
  obtain ⟨r, hr⟩ := freeTags_of_lowest h1.1 h1.2
  have hs := freeTags_sorted s
  have hu : u ∈ s.freeTags := (mem_freeTags s u).2 h3
  rw [hr] at hs hu
  rcases List.mem_cons.1 hu with rfl | hu
  · exact absurd h2 (lt_irrefl _)
  · cases r with
    | nil => exact absurd hu List.not_mem_nil
    | cons v r =>
      have hv : s.tags[v] = .free := (mem_freeTags s v).1 (by rw [hr]; simp)
      have htv : t < v := List.rel_of_pairwise_cons hs List.mem_cons_self
      rcases List.mem_cons.1 hu with rfl | hu
      · rw [hr]
        rfl
      · exact absurd hv (h4 v htv (List.rel_of_pairwise_cons hs.tail hu))

/-- A granted host turn takes the entry at the head of the intake queue (R67). -/
theorem execHostTurn_of_granted {s : State} {i : Fin 32} {e : Entry} {rest : List (Fin 32)}
    (h : HostGranted s i e rest) : execHostTurn s = .next (s.takeEntry i e) := by
  obtain ⟨h1, h2, h3⟩ := h
  simp only [execHostTurn, h1, headEntry, h2, List.head?_cons, Option.bind, h3, Option.map_some]

/-! ### Memory responses (R50) -/

/-- A response to an issued in-use tag answers it (R50). -/
theorem execMemoryResponse_of_issued {s : State} {t : Fin 64} {r : TagRecord}
    (hp : s.phase ≠ .held) (ht : s.tags[t] = .inUse r) (hi : r.issued = true) (st : MemStatus)
    (ws : List Word) :
    execMemoryResponse t st ws s = .next (s.answerTag t r st ws).offerResponse := by
  simp only [execMemoryResponse, hp, if_false, ht, hi, if_true]

end State

/-! ### The receiver and the gap (R158, R159) -/

/-- A byte that comes in HUNT, or within the 2 ms, meets R158's table. -/
theorem receive_of_early {s : State} (h : s.rx.state = .hunt ∨ s.usBase < s.rx.lastAt + 2000)
    (b : Byte) : s.receive b = s.seeHigh.takeByte b := by
  rw [State.receive, State.passGap_of_ahead (s := s.seeHigh) (h.resolve_left ·)]

/-- A byte that comes when the 2 ms have passed finds its packet discarded (R159). -/
theorem receive_of_late {s : State} (h : s.rx.state ≠ .hunt) (ht : s.rx.lastAt + 2000 ≤ s.usBase)
    (b : Byte) : s.receive b = s.seeHigh.endGap.takeByte b := by
  rw [State.receive, State.passGap_of_reached (s := s.seeHigh) h ht]

/-! ### The bytes of a boot copy (R197) -/

/-- A four-byte field at the head of a payload is read back (R190). -/
theorem wordAt_le32_append (v : Word) (p : List Byte) : wordAt (le32 v ++ p) 0 = v :=
  word_of_bytes v

/-- A field behind `p` is found at the length of `p`. -/
theorem wordAt_append_length (p q : List Byte) : wordAt (p ++ q) p.length = wordAt q 0 := by
  simp [wordAt, halfAt, byteAt, List.getD, List.getElem?_append_right, Nat.add_assoc]

/-- Four bytes are the field they spell (R190). -/
theorem le32_wordAt {p : List Byte} (h : p.length = 4) : le32 (wordAt p 0) = p := by
  match p, h with
  | [a, b, c, d], _ =>
    have hw : (wordAt [a, b, c, d] 0).toNat =
        (d.toNat * 256 + c.toNat) * 65536 + (b.toNat * 256 + a.toNat) := by
      simp only [wordAt, halfAt, toNat_append_eq]
      rfl
    have ha := a.isLt
    have hb := b.isLt
    have hc := c.isLt
    have hd := d.isLt
    simp only [le32, List.cons.injEq, and_true]
    refine ⟨?_, ?_, ?_, ?_⟩ <;> apply BitVec.eq_of_toNat_eq <;>
      simp only [BitVec.toNat_setWidth, BitVec.toNat_ushiftRight, Nat.shiftRight_eq_div_pow, hw] <;>
      omega

/-- The field at an offset spells the four bytes there (R190). -/
theorem le32_wordAt_drop {p : List Byte} {n : Nat} (h : n + 4 ≤ p.length) :
    le32 (wordAt p n) = (p.drop n).take 4 := by
  have hf : ((p.drop n).take 4).length = 4 := by simp; omega
  have hw : wordAt p n = wordAt ((p.drop n).take 4) 0 := by
    simp [wordAt, halfAt, byteAt, List.getD]
  rw [hw, le32_wordAt hf]

/-- A copy is read back from its bytes (R197). -/
theorem ofBytes_bytes {c : BootCopy} (h : c.payload.length = 884) : .ofBytes c.bytes = c := by
  have hb : c.bytes = le32 c.marker ++ (le32 c.generation ++ (c.payload ++ le32 c.crc)) := by
    simp [BootCopy.bytes]
  have h1 : wordAt c.bytes 4 = c.generation := by
    rw [hb]
    exact (wordAt_append_length (le32 c.marker) _).trans (wordAt_le32_append c.generation _)
  have h2 : wordAt c.bytes 892 = c.crc := by
    have := wordAt_append_length (le32 c.marker ++ le32 c.generation ++ c.payload) (le32 c.crc)
    rw [show (le32 c.marker ++ le32 c.generation ++ c.payload).length = 892 by simp [le32, h]] at this
    rw [show wordAt (le32 c.crc) 0 = c.crc from wordAt_le32_append c.crc []] at this
    exact this
  have h3 : (c.bytes.drop 8).take 884 = c.payload := by
    rw [hb, ← List.append_assoc, List.drop_left' (by simp [le32]), List.take_left' h]
  simp only [BootCopy.ofBytes, h1, h2, h3]
  rw [hb, wordAt_le32_append]

/-- Reading 896 bytes as a copy loses none of them (R197). -/
theorem bytes_ofBytes {p : List Byte} (h : p.length = 896) : (BootCopy.ofBytes p).bytes = p := by
  simp only [BootCopy.bytes, BootCopy.ofBytes]
  rw [le32_wordAt_drop (n := 0) (by omega), le32_wordAt_drop (n := 4) (by omega),
    le32_wordAt_drop (n := 892) (by omega)]
  have e1 : p = p.take 4 ++ ((p.drop 4).take 4 ++ ((p.drop 8).take 884 ++ (p.drop 892).take 4)) := by
    have a1 : (p.drop 892).take 4 = p.drop 892 :=
      List.take_of_length_le (by rw [List.length_drop]; omega)
    have a2 : (p.drop 8).take 884 ++ p.drop 892 = p.drop 8 := by
      rw [show p.drop 892 = (p.drop 8).drop 884 by rw [List.drop_drop]]
      exact List.take_append_drop _ _
    have a3 : (p.drop 4).take 4 ++ p.drop 8 = p.drop 4 := by
      rw [show p.drop 8 = (p.drop 4).drop 4 by rw [List.drop_drop]]
      exact List.take_append_drop _ _
    rw [a1, a2, a3, List.take_append_drop]
  conv => rhs; rw [e1]
  simp

end Sys2Proof.Machine
end

