-- ==== Sys2Proof/Laws/PerInstr.lean ====
section
/-! SUPPORT. One lemma for each command: the packet of a link command row has the unit, the code and
the payload length that R192 gives its command. -/

namespace Sys2Proof.Laws

/-- The packet a well-formed command stands for, when it stands for one, is a defined command of R192,
but for UNDEFINED_COMMAND's, which is not (R163). -/
def PacketLength.Statement (i : Instr) : Prop :=
  i.wellFormed = true → ∀ p, Machine.commandPacket i = some p →
    ((Machine.undefinedStatus p).isSome = true ↔ ∃ unit code trn payload,
      i = .undefinedCommand unit code trn payload)

/-- A command that stands for no packet. -/
theorem packetLength_of_none {i : Instr} (h : Machine.commandPacket i = none) :
    PacketLength.Statement i := by
  intro _ p hp
  rw [h] at hp
  cases hp

/-- A command whose packet is defined. -/
theorem packetLength_of_defined {i : Instr} {p : Machine.Packet}
    (hp : Machine.commandPacket i = some p) (hd : Machine.undefinedStatus p = none)
    (hn : ∀ unit code trn payload, i ≠ .undefinedCommand unit code trn payload) :
    PacketLength.Statement i := by
  intro _ q hq
  rw [hp] at hq
  cases hq
  constructor
  · intro h
    rw [hd] at h
    cases h
  · rintro ⟨a, b, c, d, h⟩
    exact absurd h (hn a b c d)

/-- The unit code of window w addresses window w (section 10.2). -/
theorem unitOf_windowUnit (w : Fin 16) :
    Machine.unitOf (Machine.windowUnit w) = some (.window w) := by
  revert w
  decide

theorem PacketLength.hardwareReset : ∀ m, PacketLength.Statement (.hardwareReset m) :=
  fun _ => packetLength_of_none rfl

theorem PacketLength.resetEnd : ∀ rate, PacketLength.Statement (.resetEnd rate) :=
  fun _ => packetLength_of_none rfl

theorem PacketLength.load : ∀ lostA lostB, PacketLength.Statement (.load lostA lostB) :=
  fun _ _ => packetLength_of_none rfl

theorem PacketLength.opening : PacketLength.Statement .opening :=
  packetLength_of_none rfl

theorem PacketLength.acceptance : ∀ req, PacketLength.Statement (.acceptance req) :=
  fun _ => packetLength_of_none rfl

theorem PacketLength.responseTaken : PacketLength.Statement .responseTaken :=
  packetLength_of_none rfl

theorem PacketLength.hostTurn : PacketLength.Statement .hostTurn :=
  packetLength_of_none rfl

theorem PacketLength.sweepReadTurn : PacketLength.Statement .sweepReadTurn :=
  packetLength_of_none rfl

theorem PacketLength.sweepWriteTurn : PacketLength.Statement .sweepWriteTurn :=
  packetLength_of_none rfl

theorem PacketLength.subRequestIssue : PacketLength.Statement .subRequestIssue :=
  packetLength_of_none rfl

theorem PacketLength.memoryResponse :
    ∀ tag status words, PacketLength.Statement (.memoryResponse tag status words) :=
  fun _ _ _ => packetLength_of_none rfl

theorem PacketLength.expiry : ∀ tag, PacketLength.Statement (.expiry tag) :=
  fun _ => packetLength_of_none rfl

theorem PacketLength.captureDeadline : ∀ w, PacketLength.Statement (.captureDeadline w) :=
  fun _ => packetLength_of_none rfl

theorem PacketLength.strobeEdge : ∀ edge, PacketLength.Statement (.strobeEdge edge) :=
  fun _ => packetLength_of_none rfl

theorem PacketLength.timebaseIncrement :
    ∀ early late, PacketLength.Statement (.timebaseIncrement early late) :=
  fun _ _ => packetLength_of_none rfl

theorem PacketLength.linkByteReceived : ∀ b, PacketLength.Statement (.linkByteReceived b) :=
  fun _ => packetLength_of_none rfl

theorem PacketLength.interByteGap : PacketLength.Statement .interByteGap :=
  packetLength_of_none rfl

theorem PacketLength.linkBreak : PacketLength.Statement .linkBreak :=
  packetLength_of_none rfl

theorem PacketLength.breakEnd : PacketLength.Statement .breakEnd :=
  packetLength_of_none rfl

theorem PacketLength.transmitterChoice : PacketLength.Statement .transmitterChoice :=
  packetLength_of_none rfl

theorem PacketLength.transmissionEnd : PacketLength.Statement .transmissionEnd :=
  packetLength_of_none rfl

theorem PacketLength.undefinedCommand :
    ∀ unit code trn payload, PacketLength.Statement (.undefinedCommand unit code trn payload) := by
  intro unit code trn payload hw p hp
  cases hp
  simp only [Instr.wellFormed, Bool.and_eq_true] at hw
  exact ⟨fun _ => ⟨unit, code, trn, payload, rfl⟩, fun _ => hw.2⟩

theorem PacketLength.getIdentity : ∀ trn, PacketLength.Statement (.getIdentity trn) := by
  intro trn
  exact packetLength_of_defined rfl rfl (by intros; simp)

theorem PacketLength.getStatus : ∀ trn, PacketLength.Statement (.getStatus trn) := by
  intro trn
  exact packetLength_of_defined rfl rfl (by intros; simp)

theorem PacketLength.setLimits : ∀ trn limit, PacketLength.Statement (.setLimits trn limit) := by
  intro trn limit
  exact packetLength_of_defined rfl rfl (by intros; simp)

theorem PacketLength.getLinkCounters :
    ∀ trn flags, PacketLength.Statement (.getLinkCounters trn flags) := by
  intro trn flags
  exact packetLength_of_defined rfl rfl (by intros; simp)

theorem PacketLength.define :
    ∀ w trn base pages mode format count flags shadow, PacketLength.Statement (.define w trn base pages mode format count flags shadow) := by
  intro w trn base pages mode format count flags shadow
  refine packetLength_of_defined rfl ?_ (by intros; simp)
  simp only [Machine.undefinedStatus, unitOf_windowUnit]
  rfl

theorem PacketLength.setChannel :
    ∀ w trn channel gain offset low high, PacketLength.Statement (.setChannel w trn channel gain offset low high) := by
  intro w trn channel gain offset low high
  refine packetLength_of_defined rfl ?_ (by intros; simp)
  simp only [Machine.undefinedStatus, unitOf_windowUnit]
  rfl

theorem PacketLength.enable : ∀ w trn, PacketLength.Statement (.enable w trn) := by
  intro w trn
  refine packetLength_of_defined rfl ?_ (by intros; simp)
  simp only [Machine.undefinedStatus, unitOf_windowUnit]
  rfl

theorem PacketLength.disable : ∀ w trn, PacketLength.Statement (.disable w trn) := by
  intro w trn
  refine packetLength_of_defined rfl ?_ (by intros; simp)
  simp only [Machine.undefinedStatus, unitOf_windowUnit]
  rfl

theorem PacketLength.query : ∀ w trn channel, PacketLength.Statement (.query w trn channel) := by
  intro w trn channel
  refine packetLength_of_defined rfl ?_ (by intros; simp)
  simp only [Machine.undefinedStatus, unitOf_windowUnit]
  rfl

theorem PacketLength.sweep :
    ∀ w trn start count, PacketLength.Statement (.sweep w trn start count) := by
  intro w trn start count
  refine packetLength_of_defined rfl ?_ (by intros; simp)
  simp only [Machine.undefinedStatus, unitOf_windowUnit]
  rfl

theorem PacketLength.zeroCapture :
    ∀ w trn channel n limit, PacketLength.Statement (.zeroCapture w trn channel n limit) := by
  intro w trn channel n limit
  refine packetLength_of_defined rfl ?_ (by intros; simp)
  simp only [Machine.undefinedStatus, unitOf_windowUnit]
  rfl

theorem PacketLength.abort : ∀ w trn, PacketLength.Statement (.abort w trn) := by
  intro w trn
  refine packetLength_of_defined rfl ?_ (by intros; simp)
  simp only [Machine.undefinedStatus, unitOf_windowUnit]
  rfl

theorem PacketLength.readStats :
    ∀ w trn slot flags, PacketLength.Statement (.readStats w trn slot flags) := by
  intro w trn slot flags
  refine packetLength_of_defined rfl ?_ (by intros; simp)
  simp only [Machine.undefinedStatus, unitOf_windowUnit]
  rfl

theorem PacketLength.monSet :
    ∀ trn monitor window channel level hysteresis direction mode, PacketLength.Statement (.monSet trn monitor window channel level hysteresis direction mode) := by
  intro trn monitor window channel level hysteresis direction mode
  exact packetLength_of_defined rfl rfl (by intros; simp)

theorem PacketLength.monArm : ∀ trn monitor, PacketLength.Statement (.monArm trn monitor) := by
  intro trn monitor
  exact packetLength_of_defined rfl rfl (by intros; simp)

theorem PacketLength.monRelease : ∀ trn monitor, PacketLength.Statement (.monRelease trn monitor) := by
  intro trn monitor
  exact packetLength_of_defined rfl rfl (by intros; simp)

theorem PacketLength.monQuery : ∀ trn monitor, PacketLength.Statement (.monQuery trn monitor) := by
  intro trn monitor
  exact packetLength_of_defined rfl rfl (by intros; simp)

theorem PacketLength.tbSet :
    ∀ trn source edge preset, PacketLength.Statement (.tbSet trn source edge preset) := by
  intro trn source edge preset
  exact packetLength_of_defined rfl rfl (by intros; simp)

theorem PacketLength.tbRead : ∀ trn, PacketLength.Statement (.tbRead trn) := by
  intro trn
  exact packetLength_of_defined rfl rfl (by intros; simp)

theorem PacketLength.faultPeek : ∀ trn, PacketLength.Statement (.faultPeek trn) := by
  intro trn
  exact packetLength_of_defined rfl rfl (by intros; simp)

theorem PacketLength.faultPop : ∀ trn, PacketLength.Statement (.faultPop trn) := by
  intro trn
  exact packetLength_of_defined rfl rfl (by intros; simp)

theorem PacketLength.faultClear : ∀ trn, PacketLength.Statement (.faultClear trn) := by
  intro trn
  exact packetLength_of_defined rfl rfl (by intros; simp)

theorem PacketLength.bootCommit : ∀ trn, PacketLength.Statement (.bootCommit trn) := by
  intro trn
  exact packetLength_of_defined rfl rfl (by intros; simp)

theorem PacketLength.commitEnd : ∀ outcome, PacketLength.Statement (.commitEnd outcome) :=
  fun _ => packetLength_of_none rfl

theorem PacketLength.bootReload :
    ∀ trn lostA lostB, PacketLength.Statement (.bootReload trn lostA lostB) := by
  intro trn lostA lostB
  by_cases h : (lostA || lostB) = true
  · exact packetLength_of_none (by simp [Machine.commandPacket, h])
  · exact packetLength_of_defined (p := ⟨Machine.bootUnit, 0x02, trn, []⟩) (by simp [Machine.commandPacket, h])
      rfl (by intros; simp)

theorem PacketLength.bootQuery : ∀ trn, PacketLength.Statement (.bootQuery trn) := by
  intro trn
  exact packetLength_of_defined rfl rfl (by intros; simp)

end Sys2Proof.Laws
end

