-- ==== Sys2Proof/Tests/Slice0.lean ====
section
/-! SUPPORT. The model's own tests: ill-formed terms refused, one step of each command with the values
of the spec's worked examples and rules, and, for each statement with hypotheses, a state and operands
that meet them. -/

namespace Sys2Proof.Tests

open Sys2Proof.Machine

-- One test after another: tests waiting for the kernel side by side each hold a thread's stack.
set_option Elab.async false

/-! ### Small states -/

/-- The next state of a command. -/
def after (r : Result) : State :=
  match r with
  | .next t => t
  | .fault _ => State.reset
  | .refused _ => State.reset

/-- The part in service with everything at its reset value. -/
def served : State := { State.reset with phase := .serving }

/-- The part in service with one window set. -/
def withWindow (w : Fin 16) (x : Window) : State :=
  { served with windows := served.windows.set w x }

/-- An ENABLED and IDLE window over [0x00010000, 0x00012000), shadow at 0x00020000 when the mode has
one, with two channels. -/
def plain (mode : Mode) : Window :=
  ⟨⟨0x10000, 2, mode, if mode = .storeBoth then some 0x20000 else none, .s16, 2⟩,
    [.default, .default], .enabled, .idle, false, 0, none⟩

/-- The same window, DISABLED. -/
def off (mode : Mode) : Window := { plain mode with state := .disabled }

/-- A state with a deferred command of a TRN in slot 0, of a unit. -/
def withDeferred (s : State) (trn unit code : Byte) : State :=
  { s with deferred := [⟨trn, unit, code, 0⟩], slots := s.slots.set 0 (.held trn unit) }

/-- A request's entry. -/
def entry (st : EntryState) (kind : ReqKind) (act : Action) (w : Option (Fin 16)) (n : Nat) : Entry :=
  ⟨st, kind, 1, 0x10000, 1, 0, w, act, none, n, .okay, [0], []⟩

/-- The part with entry 0 of its table filled. -/
def withEntry (s : State) (e : Entry) : State :=
  { s with entries := s.entries.set 0 (some e), accCounter := 1 }

/-- An issued tag of entry 0, or of a sweep of window 8. -/
def issued (owner : Owner) (kind : ReqKind) : TagRecord :=
  ⟨owner, kind, 0x10000, 1, some 8, some 1, true, some 0⟩

/-- The part with one tag set. -/
def withTag (s : State) (t : Fin 64) (x : Tag) : State := { s with tags := s.tags.set t x }

/-- Section 7.8's window 8, SWEEPING under TRN 0x40. -/
def window8 : Window :=
  ⟨⟨0x01400000, 1, .storeBoth, some 0x01480000, .s16, 1⟩, [⟨16384, 0xFFEC, 0x8000, 0x7FFF⟩],
    .enabled, .sweeping, true, 0, some ⟨0x40, .sweep⟩⟩

/-- Section 7.8's sweep at a block, in a phase, with a current tag. -/
def sweepAt (cursor done : Nat) (phase : SweepPhase) (tag : Option (Fin 64)) : Sweep :=
  ⟨8, 0x01400000, 0x01401000, true, cursor, done, phase, tag, none, false, false⟩

/-- The part in service with that sweep. -/
def sweeping (c : Sweep) : State :=
  { withDeferred (withWindow 8 window8) 0x40 0x18 0x06 with sweep := some c }

/-- The part in service with a capture of channel 1 on a window 10 in mode STORE_BOTH, under TRN 0x30
(section 8.8). -/
def capturing (c : Capture) : State :=
  { withDeferred (withWindow 10 { plain .storeBoth with
      chans := [.default, ⟨16384, 40, 0x8000, 70⟩]
      activity := .zeroing, deferred := some ⟨0x30, .zero⟩ }) 0x30 0x1A 0x07 with
    captures := served.captures.set 10 (some c) }

/-! ### Well-formedness and the word decoder -/

/-- A payload of 49 bytes does not fit a packet (R189). -/
theorem test_wellFormed_longPayload :
    (Instr.undefinedCommand 0x02 0x01 1 (List.replicate 49 0)).wellFormed = false := by decide

/-- A copy's bytes after its marker are 892 (R197). -/
theorem test_wellFormed_readBack :
    (Instr.commitEnd (.bodyMismatch (List.replicate 891 0))).wellFormed = false
      ∧ (Instr.commitEnd (.bodyMismatch (List.replicate 892 0))).wellFormed = true
      ∧ (Instr.commitEnd (.markerReadBack 0)).wellFormed = true := by decide +kernel

/-- A command that R192 defines is not an undefined command. -/
theorem test_wellFormed_definedCommand :
    (Instr.undefinedCommand 0x00 0x01 1 []).wellFormed = false := by decide

/-- 48 bytes to an absent unit, an undefined code, and a wrong length are (R163). -/
theorem test_wellFormed_undefined :
    (Instr.undefinedCommand 0x02 0x01 1 (List.replicate 48 0)).wellFormed = true
      ∧ (Instr.undefinedCommand 0x40 0x04 1 []).wellFormed = true
      ∧ (Instr.undefinedCommand 0x12 0x02 1 (List.replicate 8 0)).wellFormed = true := by decide

/-- The table gives no row bits, so no word spells a command, and no word changes the queue. -/
theorem test_decodeTableWord_none (nbits w : Nat) :
    decodeTableWord nbits w = none ∧ State.reset.withFetchWord nbits w = State.reset := ⟨rfl, rfl⟩

/-! ### Arithmetic and encodings -/

/-- Section 2.4's table. -/
theorem test_convert_section_2_4 :
    convert .s16 0xFF38 = -200 ∧ convert .s16 0x8000 = -32768 ∧ convert .u16 0x7F38 = -200
      ∧ convert .u16 0xFFFF = 32767 ∧ convert .s12r 0xAF38 = -3200 ∧ convert .s12r 0x0800 = -32768
      ∧ convert .u12r 0x0738 = -3200 ∧ convert .u12r 0x5000 = -32768 ∧ convert .u12l 0x738F = -3200
      ∧ convert .u12l 0xFFF0 = 32752 := by decide

/-- Section 2.6's ties and exact cases. -/
theorem test_scale_section_2_6 :
    scale 1 8192 = 1 ∧ scale (-1) 8192 = 0 ∧ scale (-3) 8192 = -1 ∧ scale (-4) 8192 = -2
      ∧ scale 7 12288 = 5 ∧ scale (-7) 12288 = -5 ∧ scale (-3200) 17000 = -3320 := by decide

/-- Section 2.9's four samples. -/
theorem test_condition_section_2_9 :
    let c : ChanRec := ⟨20000, 500, 0x8AD0, 30000⟩
    condition .s16 c 1000 = ⟨1721, 1721, false⟩ ∧ condition .s16 c 26000 = ⟨32238, 30000, true⟩
      ∧ condition .s16 c 0x9FE8 = ⟨-29529, -29529, false⟩
      ∧ condition .s16 c 0x9E58 = ⟨-30018, -30000, true⟩ := by decide

/-- Section 2.10's burst: the data issued. -/
theorem test_conditionBurst_section_2_10 :
    conditionBurst ⟨0x00400000, 1, .store, none, .u12l, 4⟩
      [.default, ⟨16384, 0xFF9C, 0x8000, 0x7FFF⟩, .default, ⟨32768, 0, 0xB1E0, 20000⟩] 0x00400008
      [⟨0x73809000, 15⟩, ⟨0xC00F1234, 12⟩] = [⟨0xF31C1000, 15⟩, ⟨0x4E201234, 12⟩] := by
  decide +kernel

/-- The check values of R196 and R197 over the bytes 0x31 to 0x39. -/
theorem test_check_values :
    crc16 [0x31, 0x32, 0x33, 0x34, 0x35, 0x36, 0x37, 0x38, 0x39] = 0x29B1
      ∧ crc32 [0x31, 0x32, 0x33, 0x34, 0x35, 0x36, 0x37, 0x38, 0x39] = 0xCBF43926 := by
  decide +kernel

/-- Section 12.7's SET_CHANNEL packet, up to its CRC. -/
theorem test_setChannel_packet_section_12_7 :
    ((commandPacket (.setChannel 2 0x15 1 17000 0xFF88 0x8AD0 30000)).map fun p =>
      (framePacket p.unit p.code p.trn p.payload).take 14) =
      some [0xA5, 0x09, 0x12, 0x02, 0x15, 0x01, 0x68, 0x42, 0x88, 0xFF, 0xD0, 0x8A, 0x30, 0x75] := by
  decide +kernel

/-! ### Start-up -/

/-- A reset with a commit's marker written leaves the target valid (R185). -/
theorem test_hardwareReset_markerWritten :
    let s := { served with boot := ⟨some 1, none, some .a, some ⟨1, .b, 2, defaultImage⟩⟩ }
    (after (exec (.hardwareReset true) s)).copyB.generation = 2
      ∧ (after (exec (.hardwareReset true) s)).boot.commit = none
      ∧ (after (exec (.hardwareReset true) s)).phase = .held := by decide +kernel

theorem test_resetEnd :
    (after (exec (.resetEnd .baud1000000) State.reset)).phase = .reading
      ∧ (after (exec (.resetEnd .baud1000000) State.reset)).linkRate = .baud1000000 := by
  decide +kernel

/-- The factory store: copy A active at generation 1, BOOT_ONE_COPY stamped 0 (R181, R188). -/
theorem test_load_factory :
    let t := after (exec (.load false false) { State.reset with phase := .reading })
    t.boot.active = some .a ∧ t.boot.genA = some 1 ∧ t.boot.genB = none ∧ t.limit = 1000
      ∧ t.faults = [⟨⟨.bootOneCopy, .boot, none, none, none⟩, 0, 1⟩] ∧ t.alert = true
      ∧ t.notices.length = 1 := by
  have hv : factoryCopyA.valid = true := by simp [factoryCopyA, writtenCopy, BootCopy.valid]
  have hb : State.readStore { State.reset with phase := .reading } =
      { State.reset with phase := .reading, boot := ⟨some 1, none, some .a, none⟩ } := by
    have hA : factoryCopyA.validGeneration = some 1 := by
      simp only [BootCopy.validGeneration, hv, if_true]
      rfl
    have hB : blankCopy.validGeneration = none := by decide +kernel
    simp only [State.readStore, State.reset, hA, hB]
    rfl
  simp only [exec, execLoad, State.load, State.loseCopies, Bool.false_eq_true, if_false, if_true, hb]
  decide +kernel

/-- With copy A lost as well, the defaults and BOOT_NONE (R181). -/
theorem test_load_none :
    let t := after (exec (.load true false) { State.reset with phase := .reading })
    t.boot.active = none ∧ t.faults.map (·.info.kind) = [.bootNone]
      ∧ t.windows[15] = .default := by decide +kernel

/-- The boot notice is the first packet sent (R182). -/
theorem test_opening_sendsNotice :
    let f : FaultRecord := ⟨⟨.bootOneCopy, .boot, none, none, none⟩, 0, 1⟩
    let t := after (exec .opening { State.reset with phase := .loaded, notices := [⟨0, .fault f⟩] })
    t.phase = .serving ∧ t.notices = []
      ∧ t.tx = .sending none (framePacket 0x30 0x81 255
          [0, 11, 2, 0, 0, 0, 0, 0, 0, 0, 1, 0, 0, 0, 0]) := by decide +kernel

/-! ### Tracking (section 3.10) -/

/-- Section 3.10's window 5. -/
def window5 : State :=
  { withWindow 5 { plain .store with defn := ⟨0x00800000, 16, .store, none, .s16, 1⟩ } with
    accCounter := 41 }

/-- e1 of section 3.10: DENIED, READY, fault ALIGN, offered at once when it is alone. -/
theorem test_acceptance_denied :
    let t := after (exec (.acceptance ⟨3, 0x00800002, .read 1⟩) window5)
    t.offeredResponse = some (3, .denied, [0]) ∧ t.accCounter = 42
      ∧ t.faults.map (·.info) = [⟨.align, .host, none, some 0x00800002, some 3⟩] := by
  decide +kernel

/-- e2 of section 3.10: QUEUED, window 5, PASS. -/
theorem test_acceptance_queued :
    let t := after (exec (.acceptance ⟨3, 0x00800000, .read 8⟩) window5)
    t.intake = [0] ∧ t.windows[5].inflight = 1 ∧ t.entries[0].map (·.action) = some .pass
      ∧ t.entries[0].map (·.num) = some 41 := by decide +kernel

/-- The delivery of the last request of a DRAINING window (R20). -/
theorem test_responseTaken_endsDrain :
    let s := { withEntry (withDeferred (withWindow 3 { plain .store with
      state := .draining, inflight := 1, deferred := some ⟨7, .disable⟩ }) 7 0x13 0x04)
      (entry .ready .write .condWrite (some 3) 0) with offered := some 0 }
    let t := after (exec .responseTaken s)
    t.entries[0] = none ∧ t.windows[3].state = .disabled ∧ t.slots[0] = .queued ⟨0x13, .ok, 7, []⟩
      ∧ t.replyQueue = [0] ∧ t.deferred = [] := by decide +kernel

/-- Section 4.10: the take of a STORE_BOTH write, with tags 0 to 3 in use. -/
def section410 : State :=
  let s := withWindow 2 ⟨⟨0x00300000, 4, .storeBoth, some 0x00380000, .s16, 2⟩,
    [⟨16384, 10, 0x8000, 0x7FFF⟩, ⟨8192, 0, 0xFC18, 1000⟩], .enabled, .idle, false, 1, none⟩
  { s with
    tags := Vector.ofFn fun t : Fin 64 =>
      if t.val < 4 then .inUse (issued (.sweep .read) .read) else .free
    entries := s.entries.set 8 (some ⟨.queued, .write, 4, 0x00300010, 2, 0, some 2, .condWriteShadow,
      none, 0, .okay, [], [⟨0x0FA00064, 15⟩, ⟨0x07D1FFF6, 15⟩]⟩)
    monitors := s.monitors.set 0
      ⟨.armed, some ⟨2, 1, 900, 0, .rising, .continuous⟩, .below, 0, none⟩
    intake := [8], tbValue := 77 }

theorem test_hostTurn_section_4_10 :
    let t := after (exec .hostTurn section410)
    t.turn = some ⟨.host 8, [⟨4, .write, 0x00300010, 2, [⟨0x03E8006E, 15⟩, ⟨0x03E80000, 15⟩]⟩,
        ⟨5, .write, 0x00380010, 2, [⟨0x0FA00064, 15⟩, ⟨0x07D1FFF6, 15⟩]⟩]⟩
      ∧ t.entries[8].map (·.pending) = some 2 := by decide +kernel

theorem test_hostTurn_samples_section_4_10 :
    let t := after (exec .hostTurn section410)
    (t.stats[2])[0] = ⟨2, 0, some 0, some 110⟩ ∧ (t.stats[2])[1] = ⟨2, 2, some 1000, some 1000⟩
      ∧ t.monitors[0].record = some ⟨.rising, 1000, 0x00300012, 77⟩ := by decide +kernel

theorem test_subRequestIssue_deadline :
    let t := after (exec .subRequestIssue
      { withTag served 4 (.inUse { issued (.host 0 .main) .write with issued := false, deadline := none })
        with turn := some ⟨.host 0, [⟨4, .write, 0x10000, 1, []⟩]⟩, usBase := 5 })
    t.turn = none ∧ t.tags[4] = .inUse { issued (.host 0 .main) .write with deadline := some 1005 } := by
  decide +kernel

/-- A short read: missing words are zero (R83). -/
theorem test_memoryResponse_shortRead :
    let e := { entry .issued .read .pass none 1 with len := 2, buffer := [0, 0] }
    (after (exec (.memoryResponse 4 .okay [7])
      (withTag (withEntry served e) 4 (.inUse (issued (.host 0 .main) .read))))).offeredResponse =
      some (1, .okay, [7, 0]) := by decide +kernel

/-- A response to a free tag is STRAY (R52). -/
theorem test_memoryResponse_stray :
    (after (exec (.memoryResponse 13 .okay []) served)).faults.map (·.info) =
      [⟨.stray, .host, none, none, none⟩] := by decide +kernel

/-- Section 3.11 at time 203: the shadow tag expires. -/
theorem test_expiry_section_3_11 :
    let s := withTag (withEntry (withWindow 8 (plain .storeBoth))
      (entry .issued .write .condWriteShadow (some 8) 1)) 13
      (.inUse { issued (.host 0 .shadow) .write with deadline := some 203 })
    let t := after (exec (.expiry 13) { s with usBase := 203 })
    t.offeredResponse = some (1, .expired, []) ∧ t.windows[8].stale = true
      ∧ t.faults.map (·.info) = [⟨.expired, .host, some 8, some 0x10000, some 1⟩]
      ∧ (after (exec (.expiry 13) { s with usBase := 202 })).faults = [] := by
  decide +kernel

/-! ### Sweeps (sections 7.8, 7.9) -/

/-- Section 7.8's first read turn. -/
theorem test_sweepReadTurn_section_7_8 :
    (after (exec .sweepReadTurn (sweeping (sweepAt 0x01400000 0 .readPending none)))).dRequest =
      some ⟨0, .read, 0x01480000, 16, []⟩ := by decide +kernel

/-- Section 7.8's first write turn: the lanes at 0x20 are 50 and 60 less 20. -/
theorem test_sweepWriteTurn_section_7_8 :
    let block := List.replicate 8 0 ++ [0x003C0032] ++ List.replicate 7 0
    ((after (exec .sweepWriteTurn (sweeping
      { sweepAt 0x01400000 0 .writePending none with block := some block }))).dRequest.map fun q =>
        (q.addr, q.data[8]?)) = some (0x01400000, some ⟨0x0028001E, 15⟩) := by decide +kernel

/-- Section 7.9's last block, in phase WRITE_OUT. -/
def lastBlock : State :=
  withTag (sweeping (sweepAt 0x01400FC0 63 .writeOut (some 0))) 0
    (.inUse { issued (.sweep .write) .write with addr := 0x01400FC0, hostTag := none })

/-- Section 7.9, first and fourth rows: the answer comes first. -/
theorem test_sweepAnswer_section_7_9 :
    let ok := after (exec (.memoryResponse 0 .okay []) lastBlock)
    let err := after (exec (.memoryResponse 0 .error []) lastBlock)
    ok.slots[0] = .queued ⟨0x18, .ok, 0x40, [64, 0, 0, 0]⟩ ∧ ok.windows[8].stale = false
      ∧ err.slots[0] = .queued ⟨0x18, .failed, 0x40, [0xC0, 0x0F, 0x40, 0x01, 63, 0, 0, 0, 1, 0]⟩
      ∧ err.windows[8].stale = true := by decide +kernel

/-- Section 7.9, second row: ABORT first, then OKAY. -/
theorem test_abort_section_7_9 :
    let t := after (exec (.abort 8 0x41) lastBlock)
    let u := after (exec (.memoryResponse 0 .okay []) t)
    t.slots[1] = .queued ⟨0x18, .ok, 0x41, []⟩
      ∧ u.slots[0] = .queued ⟨0x18, .aborted, 0x40, [0x00, 0x10, 0x40, 0x01, 64, 0, 0, 0]⟩
      ∧ u.windows[8].stale = true := by decide +kernel

theorem test_sweep_starts :
    let t := after (exec (.sweep 8 0x40 0 0) (withWindow 8
      { window8 with activity := .idle, deferred := none }))
    t.sweep = some (sweepAt 0x01400000 0 .readPending none) ∧ t.slots[0] = .held 0x40 0x18 := by
  decide +kernel

/-- A start page at the page count is BAD_VALUE (R113). -/
theorem test_sweep_badValue :
    (after (exec (.sweep 8 0x40 1 0) (withWindow 8
      { window8 with activity := .idle, deferred := none }))).slots[0] =
      .queued ⟨0x18, .badValue, 0x40, []⟩ := by decide +kernel

/-! ### Zero capture (section 8.8) -/

/-- Burst B's eighth sample of channel 1 completes the capture: mean 63, offset −23. -/
theorem test_accumulate_section_8_8 :
    let t := (capturing ⟨1, 4, 50, 1005 - 65, 15, 50⟩).accumulate 10 ⟨1, 0x10000, ⟨65, 65, false⟩⟩
    t.windows[10].chans[1]? = some ⟨16384, 0xFFE9, 0x8000, 70⟩ ∧ t.windows[10].stale = true
      ∧ t.slots[0] = .queued ⟨0x1A, .ok, 0x30, [40, 0, 0xE9, 0xFF, 63, 0, 0, 0]⟩ := by
  decide +kernel

theorem test_zeroCapture_starts :
    let t := after (exec (.zeroCapture 10 0x30 1 4 50)
      { withWindow 10 (plain .storeBoth) with usBase := 999 })
    t.captures[10] = some ⟨1, 4, 50, 0, 0, 50⟩ ∧ t.windows[10].activity = .zeroing := by
  decide +kernel

theorem test_captureDeadline :
    let s := capturing ⟨1, 4, 50, 500, 8, 50⟩
    (after (exec (.captureDeadline 10) { s with usBase := 50000 })).slots[0] =
      .queued ⟨0x1A, .timeout, 0x30, [8, 0]⟩
      ∧ (after (exec (.captureDeadline 10) { s with usBase := 49999 })).windows[10].activity =
        .zeroing := by
  decide +kernel

/-- A deadline and a BREAK of one step, in both orders: a TIMEOUT made before the BREAK is discarded by it,
one made after it is kept; a gap that comes first is counted (R172). -/
theorem test_captureDeadline_and_break :
    let s := { capturing ⟨1, 4, 50, 500, 8, 50⟩ with
      usBase := 49999, rxHighAt := 49000, rx := ⟨.payload, [4, 0, 1, 9], 48000⟩ }
    let t := after (exec (.timebaseIncrement [] [.lineBreak]) s)
    let u := after (exec (.timebaseIncrement [.captureDeadline 10, .interByteGap] [.lineBreak]) s)
    t.slots[0] = .queued ⟨0x1A, .timeout, 0x30, [8, 0]⟩ ∧ t.replyQueue = [0]
      ∧ t.counters = ⟨0, 0, 0, 0, 1⟩
      ∧ u.slots[0] = .free ∧ u.replyQueue = [] ∧ u.counters = ⟨1, 0, 0, 0, 1⟩ := by
  decide +kernel

/-! ### Windows -/

/-- Section 1.7's rows at ENABLE. -/
theorem test_enable_section_1_7 :
    let one : Window := ⟨⟨0x01000000, 16, .storeBoth, some 0x02000000, .s16, 1⟩, [.default], .enabled,
      .idle, false, 0, none⟩
    let reply := fun (d : WindowDef) =>
      (after (exec (.enable 2 9) { withWindow 1 one with
        windows := (withWindow 1 one).windows.set 2 { off .store with defn := d } })).slots[0]
    reply ⟨0x01010000, 4, .store, none, .s16, 1⟩ = .queued ⟨0x12, .ok, 9, []⟩
      ∧ reply ⟨0x0100F000, 1, .present, none, .s16, 1⟩ = .queued ⟨0x12, .overlap, 9, []⟩
      ∧ reply ⟨0x0200C000, 8, .store, none, .s16, 1⟩ = .queued ⟨0x12, .overlap, 9, []⟩
      ∧ reply ⟨0x03000000, 16, .storeBoth, some 0x02008000, .s16, 1⟩ =
          .queued ⟨0x12, .overlap, 9, []⟩ := by decide +kernel

/-- Section 1.7's last row, refused at DEFINE. -/
theorem test_define_section_1_7 :
    (after (exec (.define 2 9 0x03000000 16 2 0 1 1 0x03008000) served)).slots[0] =
      .queued ⟨0x12, .badValue, 9, []⟩
      ∧ (after (exec (.define 2 9 0x03000000 16 2 0 1 1 0x03010000) served)).windows[2].defn =
        ⟨0x03000000, 16, .storeBoth, some 0x03010000, .s16, 1⟩ := by decide +kernel

theorem test_setChannel_setsStale :
    let t := after (exec (.setChannel 2 0x15 1 17000 0xFF88 0x8AD0 30000)
      (withWindow 2 (plain .storeBoth)))
    t.windows[2].chans[1]? = some ⟨17000, 0xFF88, 0x8AD0, 30000⟩ ∧ t.windows[2].stale = true
      ∧ t.slots[0] = .queued ⟨0x12, .ok, 0x15, []⟩ := by decide +kernel

theorem test_disable_drains :
    let t := after (exec (.disable 3 7) (withWindow 3 { plain .store with inflight := 1 }))
    t.windows[3].state = .draining ∧ t.slots[0] = .held 7 0x13
      ∧ t.deferred = [⟨7, 0x13, 0x04, 0⟩] := by decide +kernel

/-- The 39 bytes of QUERY on an ENABLED PRESENT window (R195). -/
theorem test_query_payload :
    (after (exec (.query 3 7 1) (withWindow 3 (plain .present)))).slots[0] =
      .queued ⟨0x13, .ok, 7, [0, 0, 1, 0, 2, 0, 0, 0, 2, 0, 0, 0, 0, 1, 0, 8, 0, 0, 1,
        0, 0x40, 0, 0, 0, 0x80, 0xFF, 0x7F, 0, 0, 0, 0, 0, 0, 0, 0, 0, 0, 0, 0]⟩ := by decide +kernel

/-! ### Statistics and monitors (section 6.6) -/

theorem test_readStats_clears :
    let s := { served with stats := served.stats.set 5 (served.stats[5].set 0 ⟨4, 1, some (-2), some 9⟩) }
    let t := after (exec (.readStats 5 1 0 1) s)
    t.slots[0] = .queued ⟨0x15, .ok, 1, [0, 1, 4, 0, 0, 0, 1, 0, 0, 0, 0xFE, 0xFF, 9, 0]⟩
      ∧ (t.stats[5])[0] = .empty := by decide +kernel

/-- Section 6.6's burst A at monitor 4: 850 falls below 900 and trips it. -/
theorem test_watchSample_section_6_6 :
    let m : Monitor := ⟨.armed, some ⟨5, 0, 900, 0, .falling, .oneShot⟩, .above, 0, none⟩
    let s := { served with monitors := served.monitors.set 4 m }
    let t := s.watchSample 5 1000 ⟨0, 0x00800006, ⟨850, 850, false⟩⟩ 4
    t.monitors[4].state = .tripped ∧ t.monitors[4].count = 1
      ∧ t.monitors[4].record = some ⟨.falling, 850, 0x00800006, 1000⟩
      ∧ t.notices.length = 1 := by decide +kernel

theorem test_monSet_binds :
    (after (exec (.monSet 1 3 5 1 1000 200 0 0) (withWindow 5 (plain .store)))).monitors[3] =
      ⟨.armed, some ⟨5, 1, 1000, 200, .rising, .continuous⟩, .unknown, 0, none⟩ := by decide +kernel

theorem test_monArm_rearms :
    let m : Monitor := ⟨.tripped, some ⟨5, 0, 900, 0, .falling, .oneShot⟩, .below, 1, none⟩
    let s := { served with monitors := served.monitors.set 4 m }
    (after (exec (.monArm 1 4) s)).monitors[4].state = .armed
      ∧ (after (exec (.monArm 1 4) s)).monitors[4].side = .unknown
      ∧ (after (exec (.monArm 1 3) s)).slots[0] = .queued ⟨0x20, .wrongState, 1, []⟩ := by
  decide +kernel

theorem test_monRelease_unbinds :
    let m : Monitor := ⟨.armed, some ⟨5, 0, 900, 0, .falling, .oneShot⟩, .above, 3, none⟩
    (after (exec (.monRelease 1 15)
      { served with monitors := served.monitors.set 15 m })).monitors[15] = .unbound := by
  decide +kernel

theorem test_monQuery_unbound :
    (after (exec (.monQuery 1 16) served)).slots[0] = .queued ⟨0x20, .badValue, 1, []⟩
      ∧ (after (exec (.monQuery 1 15) served)).slots[0] =
        .queued ⟨0x20, .ok, 1, 15 :: List.replicate 25 0⟩ := by decide +kernel

/-! ### Timebase and faults -/

theorem test_timebaseIncrement_wraps :
    (after (exec .timebaseIncrement { served with tbValue := 0xFFFFFFFF })).tbValue = 0
      ∧ (after (exec .timebaseIncrement { served with tbSource := .strobe })).tbValue = 0
      ∧ (after (exec .timebaseIncrement { served with tbSource := .strobe })).usBase = 1 := by
  decide +kernel

/-- Before the step that reaches a deadline an answer is in time; the step passes the deadline, stamped
after its count, and an answer then is LATE (R50, R51, R143). -/
theorem test_timebaseIncrement_passes_deadline :
    let r : TagRecord := { issued (.host 0 .main) .write with deadline := some 10 }
    let s := { withTag (withEntry served (entry .issued .write .condWrite (some 15) 1)) 63 (.inUse r) with
      usBase := 8, tbValue := 8 }
    let t := after (exec .timebaseIncrement s)
    let u := after (exec .timebaseIncrement t)
    t.usBase = 9 ∧ ((after (exec (.memoryResponse 63 .okay []) t)).entries[0].map (·.worst)) = some .okay
      ∧ u.usBase = 10 ∧ (u.entries[0].map (·.worst)) = some .expired ∧ u.faults.map (·.stamp) = [10]
      ∧ (after (exec (.memoryResponse 63 .okay []) u)).faults.map (·.info.kind) = [.expired, .late] := by
  decide +kernel

theorem test_strobeEdge_edge :
    let s := { served with tbSource := .strobe, tbEdge := .falling }
    (after (exec (.strobeEdge .falling) s)).tbValue = 1
      ∧ (after (exec (.strobeEdge .rising) s)).tbValue = 0 := by decide +kernel

theorem test_tbSet_and_tbRead :
    (after (exec (.tbSet 1 1 0 0x01020304) served)).tbValue = 0x01020304
      ∧ (after (exec (.tbSet 1 2 0 0) served)).slots[0] = .queued ⟨0x30, .badValue, 1, []⟩
      ∧ (after (exec (.tbRead 1) { served with tbValue := 0x01020304 })).slots[0] =
        .queued ⟨0x30, .ok, 1, [4, 3, 2, 1, 0, 0]⟩ := by decide +kernel

/-- A fault list of one LATE record with overflow. -/
def oneFault : State :=
  { served with
    faults := [⟨⟨.late, .host, some 9, some 0x00B00010, some 1⟩, 340, 1⟩], overflow := true, alert := true }

theorem test_faultPeek_payload :
    (after (exec (.faultPeek 1) oneFault)).slots[0] = .queued ⟨0x30, .ok, 1,
      [1, 3, 9, 0, 7, 9, 0x10, 0x00, 0xB0, 0x00, 1, 1, 0x54, 0x01, 0, 0]⟩ := by decide +kernel

theorem test_faultPop_and_clear :
    (after (exec (.faultPop 1) oneFault)).alert = false
      ∧ (after (exec (.faultPop 1) oneFault)).overflow = true
      ∧ (after (exec (.faultClear 1) oneFault)).slots[0] = .queued ⟨0x30, .ok, 1, [1, 1]⟩
      ∧ (after (exec (.faultClear 1) oneFault)).overflow = false := by decide +kernel

/-! ### The link -/

theorem test_linkByteReceived_sync_and_length :
    (after (exec (.linkByteReceived 0xA5) served)).rx.state = .header
      ∧ (after (exec (.linkByteReceived 49) { served with rx := ⟨.header, [], 0⟩ })).counters.framing = 1
      ∧ (after (exec (.linkByteReceived 48) { served with rx := ⟨.header, [], 0⟩ })).rx =
        ⟨.header, [48], 0⟩ := by decide +kernel

/-- The last byte of GET_IDENTITY's packet makes its reply, and a wrong one counts a CRC error
(R160, R174). -/
theorem test_linkByteReceived_check :
    let c := crc16 [0, 0, 1, 9]
    let s := { served with rx := ⟨.check, [0, 0, 1, 9, c.setWidth 8], 0⟩ }
    (after (exec (.linkByteReceived ((c >>> 8).setWidth 8)) s)).slots[0] =
      .queued ⟨0x00, .ok, 9, [0x60, 0x41, 0x02, 0x00]⟩
      ∧ (after (exec (.linkByteReceived (((c >>> 8).setWidth 8) + 1)) s)).counters.crc = 1 := by
  decide +kernel

theorem test_interByteGap :
    let s := { served with rx := ⟨.payload, [4, 0, 1, 9], 7⟩ }
    (after (exec .interByteGap { s with usBase := 2007 })).counters.framing = 1
      ∧ (after (exec .interByteGap { s with usBase := 2006 })).rx.state = .payload := by
  decide +kernel

/-- A byte before the 2 ms is kept; one that finds them reached is handled in HUNT, with a framing count
(R159). -/
theorem test_linkByteReceived_late :
    let s := { served with rx := ⟨.payload, [4, 0, 1, 9], 7⟩ }
    let t := after (exec (.linkByteReceived 0xA5) { s with usBase := 2007 })
    (after (exec (.linkByteReceived 0xA5) { s with usBase := 2006 })).rx.bytes = [4, 0, 1, 9, 0xA5]
      ∧ t.rx = ⟨.header, [], 2007⟩ ∧ t.counters.framing = 1 ∧ t.rxHigh = true := by decide +kernel

/-- A BREAK frees queued slots, keeps held ones, empties the notices, and leaves a packet its character in
progress (R171). -/
theorem test_linkBreak :
    let s := { withDeferred served 7 0x13 0x04 with
      slots := (withDeferred served 7 0x13 0x04).slots.set 1 (.sending ⟨0, .ok, 1, []⟩)
      tx := .sending (some 1) [0xA5], lost := 3, usBase := 1000 }
    let t := after (exec .linkBreak s)
    t.slots[0] = .held 7 0x13 ∧ t.slots[1] = .free ∧ t.lost = 0 ∧ t.counters.breaks = 1
      ∧ t.tx = .cutOff [0xA5] ∧ (after (exec .transmissionEnd t)).tx = .idle := by decide +kernel

/-- BREAK's 1 ms is timed from the opening, from the line's return high, and from a command's last stop bit,
but for a BREAK that reaches the part together with it (R171, R172). -/
theorem test_linkBreak_timed :
    let s := after (exec .opening { State.reset with phase := .loaded, usBase := 7 })
    let at_ := fun (s : State) n => after (exec .linkBreak { s with usBase := n })
    let u := after (exec .breakEnd { at_ s 1007 with usBase := 1500 })
    let c := after (exec (.getIdentity 1) { s with usBase := 1007 })
    let d := after (exec .linkBreak c)
    (at_ s 1006).counters.breaks = 0 ∧ (at_ s 1007).counters.breaks = 1
      ∧ c.replyQueue = [0] ∧ d.replyQueue = [] ∧ d.counters.breaks = 1
      ∧ (after (exec .linkBreak (after (exec .timebaseIncrement c)))).counters.breaks = 0
      ∧ (at_ u 2499).counters.breaks = 1 ∧ (at_ u 2500).counters.breaks = 2 := by decide +kernel

/-- After four replies a waiting notice goes first (R169). -/
theorem test_transmitterChoice_run :
    let s := { served with
      slots := served.slots.set 0 (.queued ⟨0, .ok, 1, []⟩), replyQueue := [0]
      notices := [⟨0, .fault ⟨⟨.stray, .host, none, none, none⟩, 0, 1⟩⟩] }
    (after (exec .transmitterChoice { s with runCount := 4 })).notices = []
      ∧ (after (exec .transmitterChoice { s with runCount := 3 })).slots[0] =
        .sending ⟨0, .ok, 1, []⟩ := by decide +kernel

theorem test_transmissionEnd_frees :
    (after (exec .transmissionEnd { served with
      slots := served.slots.set 3 (.sending ⟨0, .ok, 1, []⟩), tx := .sending (some 3) [] })).slots[3] =
      .free := by decide +kernel

theorem test_undefinedCommand_refusals :
    (after (exec (.undefinedCommand 0x02 1 9 []) served)).slots[0] = .queued ⟨0x02, .noUnit, 9, []⟩
      ∧ (after (exec (.undefinedCommand 0x20 5 9 []) served)).slots[0] =
        .queued ⟨0x20, .noCommand, 9, []⟩
      ∧ (after (exec (.undefinedCommand 0x12 2 9 (List.replicate 8 0)) served)).slots[0] =
        .queued ⟨0x12, .badLength, 9, []⟩
      ∧ (after (exec (.undefinedCommand 0x02 1 255 []) served)).counters.badTrn = 1 := by
  decide +kernel

theorem test_getIdentity :
    (after (exec (.getIdentity 1) { served with linkRate := .baud1000000 })).slots[0] =
      .queued ⟨0, .ok, 1, [0x60, 0x41, 0x02, 0x01]⟩ := by decide +kernel

theorem test_getStatus :
    (after (exec (.getStatus 1) served)).slots[0] =
      .queued ⟨0, .ok, 1, [0, 64, 0, 0, 0xE8, 0x03, 0, 0, 1, 0, 0, 0, 0]⟩ := by decide +kernel

theorem test_setLimits_old :
    (after (exec (.setLimits 1 200) served)).slots[0] = .queued ⟨0, .ok, 1, [0xE8, 0x03]⟩
      ∧ (after (exec (.setLimits 1 200) served)).limit = 200 := by decide +kernel

theorem test_getLinkCounters_clear :
    let s := { served with counters := ⟨1, 2, 3, 4, 0x105⟩ }
    (after (exec (.getLinkCounters 1 1) s)).slots[0] =
      .queued ⟨0, .ok, 1, [1, 0, 2, 0, 3, 0, 4, 0, 5, 1]⟩
      ∧ (after (exec (.getLinkCounters 1 1) s)).counters = ⟨0, 0, 0, 0, 0⟩
      ∧ (after (exec (.getLinkCounters 1 0xFE) s)).counters = ⟨1, 2, 3, 4, 0x105⟩ := by
  decide +kernel

/-! ### The boot store (section 11.7) -/

/-- The first commit of section 11.7: copy B, generation 2. -/
theorem test_bootCommit_registers :
    let t := after (exec (.bootCommit 0x60) { served with boot := ⟨some 1, none, some .a, none⟩ })
    t.boot.commit.map (fun p => (p.trn, p.target, p.generation)) = some (0x60, .b, 2)
      ∧ t.copyB.marker = 0 ∧ t.slots[0] = .held 0x60 0x40 := by decide +kernel

/-- The end of that commit. -/
theorem test_commitEnd_exact :
    let s := { withDeferred served 0x60 0x40 0x01 with
      boot := ⟨some 1, none, some .a, some ⟨0x60, .b, 2, defaultImage⟩⟩ }
    let t := after (exec (.commitEnd (.markerReadBack 0x5A3C9617)) s)
    t.boot = ⟨some 1, some 2, some .b, none⟩ ∧ t.slots[0] = .queued ⟨0x40, .ok, 0x60, [1, 2, 0, 0, 0]⟩
      ∧ (after (exec (.commitEnd (.markerReadBack 0)) s)).slots[0] =
        .queued ⟨0x40, .failed, 0x60, [1, 2, 0, 0, 0]⟩ := by decide +kernel

/-- A commit whose marker reads back wrong, or whose bytes do, leaves in the target what was written or
read back (R184, R197). -/
theorem test_commitEnd_failed :
    let s := { withDeferred served 0x60 0x40 0x01 with
      boot := ⟨some 1, none, some .a, some ⟨0x60, .b, 2, defaultImage⟩⟩ }
    let t := after (exec (.commitEnd (.markerReadBack 0x5A3C9616)) s)
    let u := after (exec (.commitEnd (.bodyMismatch (List.replicate 892 0xFF))) s)
    t.copyB.marker = 0x5A3C9616 ∧ t.copyB.generation = 2 ∧ t.boot.genB = none
      ∧ u.copyB.bytes.take 9 = [0, 0, 0, 0, 0xFF, 0xFF, 0xFF, 0xFF, 0xFF] ∧ u.boot.commit = none := by
  decide +kernel

/-- A blank copy is 896 bytes of 0xFF (R197). -/
theorem test_blankCopy_bytes : blankCopy.bytes = List.replicate 896 0xFF := by decide +kernel

theorem test_bootReload_and_busy :
    (after (exec (.bootReload 1 false false) { served with copyA := blankCopy })).slots[0] =
      .queued ⟨0x40, .ok, 1, [2, 0, 0, 0, 0]⟩
      ∧ (after (exec (.bootReload 1 false false) (withWindow 3 (plain .store)))).slots[0] =
        .queued ⟨0x40, .wrongState, 1, []⟩ := by decide +kernel

theorem test_bootQuery :
    (after (exec (.bootQuery 1) { served with boot := ⟨some 1, some 2, some .b, none⟩ })).slots[0] =
      .queued ⟨0x40, .ok, 1, [3, 1, 1, 0, 0, 0, 2, 0, 0, 0]⟩ := by decide +kernel

/-- A step takes the front of the queue. -/
theorem test_step_front :
    (after (step { served with pending := [.strobeEdge .rising, .opening] })).pending = [.opening] := by
  decide +kernel

/-! ### Witnesses

One theorem for each statement with hypotheses: concrete states and operands that meet the
hypotheses of each of its clauses, at the ends of their ranges. -/

/-- The last reply slot free, the others queued. -/
def lastSlot : State :=
  { served with
    slots := Vector.ofFn fun k : Fin 16 => if k.val < 15 then .queued ⟨0, .ok, 1, []⟩ else .free
    replyQueue := (List.finRange 16).take 15 }

/-- The link takes a command: TRN 1 in slot 0, and TRN 254 in slot 15. -/
theorem witness_linkTakes : LinkTakes served 1 0 ∧ LinkTakes lastSlot 254 15 := by decide +kernel

/-- StepRunsFrontCommand. -/
theorem witness_stepRunsFrontCommand :
    { served with pending := [.opening] }.pending = .opening :: [] ∧ served.pending = [] := ⟨rfl, rfl⟩

/-- ResetEndAndOpening. -/
theorem witness_resetEndAndOpening :
    let s := { State.reset with phase := .loaded }
    let n : Notice := ⟨255, .fault ⟨⟨.bootNone, .boot, none, none, none⟩, 0, 1⟩⟩
    State.reset.phase = .held ∧ s.phase = .loaded ∧ s.breakLow = false ∧ s.tx = .idle
      ∧ s.replyQueue = [] ∧ s.notices = [] ∧ { s with notices := [n] }.notices = n :: [] := by
  decide +kernel

/-- LoadTakesActiveCopy. -/
theorem witness_loadTakesActiveCopy : { State.reset with phase := .reading }.phase = .reading := rfl

/-- A table whose entries are all old enough takes a request. -/
theorem accepts_of {s : State} {i : Fin 32} (hp : s.phase = .serving) (hi : s.entries[i] = none)
    (hl : ∀ j : Fin 32, j < i → s.entries[j] ≠ none)
    (hc : ∀ j : Fin 32, (s.entries[j]).all
      (fun e => (s.accCounter - e.num).toNat < 2 ^ 31 - 1) = true) : Accepts s i := by
  refine ⟨hp, hi, hl, fun j e he => ?_⟩
  have h := hc j
  rw [he] at h
  simpa using h

/-- A table with entry 31 alone FREE, its entries at the oldest age allowed. -/
def lastEntry (s : State) : State :=
  { s with
    entries := Vector.ofFn fun j : Fin 32 =>
      if j.val < 31 then some (entry .ready .write .pass none 0) else none
    accCounter := 0x7FFFFFFE }

/-- The U port takes a request into entry 0, and into entry 31. -/
theorem witness_accepts : Accepts served 0 ∧ Accepts (lastEntry served) 31 :=
  ⟨accepts_of (by decide +kernel) (by decide +kernel) (by decide +kernel) (by decide +kernel),
    accepts_of (by decide +kernel) (by decide +kernel) (by decide +kernel) (by decide +kernel)⟩

/-- AcceptanceQueuesRequest: no window, and the last word of a window; 1 word, and 16 up to the end of
a 4 KiB page; full lanes. -/
theorem witness_acceptanceQueuesRequest :
    let s := withWindow 15 (plain .storeBoth)
    let ws := List.replicate 16 (⟨0, 15⟩ : WriteWord)
    MatchedBy served 0xFFFFFFFC none ∧ MatchedBy s 0x00011FFC (some 15)
      ∧ MatchedBy s 0x00010000 (some 15) ∧ GuardedBy s 0x00010FC0 none
      ∧ (0x00011FFC : Word).toNat % 4 = 0 ∧ (0x00011FFC : Word).toNat % 4096 + 4 * 1 ≤ 4096
      ∧ (0x00010FC0 : Word).toNat % 4 = 0 ∧ (0x00010FC0 : Word).toNat % 4096 + 4 * 16 ≤ 4096
      ∧ MatchedBy s 0x00010FC0 (some 15) ∧ 1 ≤ ws.length ∧ ws.length ≤ 16
      ∧ ∀ x ∈ ws, ¬HasTornLane x := by decide +kernel

theorem witness_acceptanceQueuesRequest_accepts : Accepts (withWindow 15 (plain .storeBoth)) 0 :=
  accepts_of (by decide +kernel) (by decide +kernel) (by decide +kernel) (by decide +kernel)

/-- AcceptanceDeniesFailedChecks: misaligned; 0 and 17 words; one word over the page; the first and
last bytes of a shadow range; a torn lane. -/
theorem witness_acceptanceDeniesFailedChecks :
    let s := withWindow 15 (plain .storeBoth)
    (0x00010003 : Word).toNat % 4 ≠ 0 ∧ (0x00010000 : Word).toNat % 4 = 0 ∧ 16 < 17
      ∧ 4096 < (0x00010FFC : Word).toNat % 4096 + 4 * 2
      ∧ (List.replicate 17 (⟨0, 15⟩ : WriteWord)).length = 17
      ∧ (List.replicate 2 (⟨0, 15⟩ : WriteWord)).length = 2
      ∧ GuardedBy s 0x00020000 (some 15) ∧ GuardedBy s 0x00021FFC (some 15)
      ∧ MatchedBy s 0x00020000 none ∧ GuardedBy s 0x00010000 none
      ∧ MatchedBy s 0x00010000 (some 15) ∧ HasTornLane ⟨0, 1⟩ ∧ HasTornLane ⟨0, 11⟩ := by
  decide +kernel

/-- ArbiterOffersOldestEligible: an offer, and none; one READY entry, eligible. -/
theorem witness_arbiterOffersOldestEligible :
    let s := withEntry served (entry .ready .read .pass none 0)
    { s with offered := some 0 }.offered = some 0 ∧ s.offered = none ∧ s.eligible 0 = true
      ∧ served.offered = none ∧ served.offerResponse.offered = none := by decide +kernel

/-- Its offers: a write, an OKAY read and an EXPIRED read. -/
theorem witness_arbiterOffersOldestEligible_responses :
    let w := entry .ready .write .pass none 0
    let g := entry .ready .read .pass none 0
    let b := { g with worst := .expired }
    let on := fun (e : Entry) => { withEntry served e with offered := some 0 }
    (on w).entries[0] = some w ∧ w.kind = .write ∧ (on g).entries[0] = some g ∧ g.kind = .read
      ∧ g.worst = .okay ∧ (on b).entries[0] = some b ∧ b.kind = .read ∧ b.worst ≠ .okay := by
  decide +kernel

/-- Its numbers are distinct and near. -/
theorem witness_arbiterOffersOldestEligible_numbers :
    let s := withEntry served (entry .ready .read .pass none 0)
    ∀ (i j : Fin 32) (e f : Entry), s.entries[i] = some e → s.entries[j] = some f →
      (s.accCounter - e.num).toNat < 2 ^ 31 - 1 ∧ (e.num = f.num → i = j) := by
  intro s i j e f he hf
  have h : ∀ i : Fin 32, (s.entries[i]).all
      (fun e => (s.accCounter - e.num).toNat < 2 ^ 31 - 1 ∧ i = 0) = true := by decide +kernel
  have hi := h i
  have hj := h j
  rw [he] at hi
  rw [hf] at hj
  simp only [Option.all_some, decide_eq_true_eq] at hi hj
  exact ⟨hi.1, fun _ => hi.2.trans hj.2.symm⟩

/-- ResponseTakenFreesEntry: no window; a window not draining; a DRAINING one with 2 and with 1 in
flight. -/
theorem witness_responseTakenFreesEntry :
    let e := entry .ready .write .condWrite (some 3) 0
    let s := { withEntry (withWindow 3 { plain .store with inflight := 1 }) e with offered := some 0 }
    let x : Window :=
      { plain .store with state := .draining, inflight := 1, deferred := some ⟨254, .disable⟩ }
    let d := { withEntry (withDeferred (withWindow 3 x) 254 0x13 0x04) e with offered := some 0 }
    s.offered = some 0 ∧ s.entries[0] = some e ∧ e.window = some 3
      ∧ (entry .ready .read .pass none 0).window = none ∧ s.windows[3].state ≠ .draining
      ∧ d.entries[0] = some e ∧ d.windows[3].state = .draining ∧ d.windows[3].inflight = 1
      ∧ Registered d 3 ⟨254, 0x13, 0x04, 0⟩ ∧ 2 ≤ { x with inflight := 2 }.inflight := by
  decide +kernel

/-- A host entry queued, with its action and window. -/
def queued (s : State) (act : Action) (w : Option (Fin 16)) : State :=
  { withEntry s (entry .queued .write act w 0) with intake := [0] }

/-- EngineGrantFollowsTable: a turn in progress; the four rows, with fairness 7 and 8. -/
theorem witness_engineGrantFollowsTable :
    let h := queued served .pass none
    let w := sweeping (sweepAt 0x01400000 0 .readPending none)
    let b := queued w .pass none
    { served with turn := some ⟨.host 0, []⟩ }.turn ≠ none ∧ served.turn = none
      ∧ h.hostReady = true ∧ h.sweepReady = false ∧ w.hostReady = false ∧ w.sweepReady = true
      ∧ b.hostReady = true ∧ b.sweepReady = true ∧ served.hostReady = false
      ∧ served.sweepReady = false ∧ { b with fairness := 7 }.grant = some .host
      ∧ { b with fairness := 8 }.grant = some .sweep := by decide +kernel

/-- All tags but the last in use. -/
def lastTags (s : State) (n : Nat) : State :=
  { s with tags := Vector.ofFn fun t : Fin 64 =>
      if t.val < 64 - n then .quarantined (issued (.host 0 .main) .write) else .free }

/-- HostTurnPassesAndReads: a PASS entry with tag 0, a COND_READ entry with tag 63. -/
theorem witness_hostTurnPassesAndReads :
    let s := queued served .pass none
    let r := lastTags (queued (withWindow 3 (plain .present)) .condRead (some 3)) 1
    HostGranted s 0 (entry .queued .write .pass none 0) [] ∧ LowestFree s 0
      ∧ HostGranted r 0 (entry .queued .write .condRead (some 3) 0) [] ∧ LowestFree r 63 := by
  decide +kernel

/-- HostTurnConditionsWrites: the three write actions, the last with tags 62 and 63. -/
theorem witness_hostTurnConditionsWrites :
    let c := queued (withWindow 3 (plain .store)) .condWrite (some 3)
    let r := lastTags (queued (withWindow 3 (plain .present)) .rawWritePresent (some 3)) 1
    let b := lastTags (queued (withWindow 3 (plain .storeBoth)) .condWriteShadow (some 3)) 2
    HostGranted c 0 (entry .queued .write .condWrite (some 3) 0) [] ∧ LowestFree c 0
      ∧ HostGranted r 0 (entry .queued .write .rawWritePresent (some 3) 0) [] ∧ LowestFree r 63
      ∧ HostGranted b 0 (entry .queued .write .condWriteShadow (some 3) 0) []
      ∧ LowestTwoFree b 62 63 ∧ b.windows[3].defn.shadow = some 0x20000 := by decide +kernel

/-- SweepTurnsTakeTheirBlock: tag 0 and tag 63. -/
theorem witness_sweepTurnsTakeTheirBlock :
    let c := sweepAt 0x01400000 0 .readPending none
    let block := List.replicate 16 (0 : Word)
    let d := { sweepAt 0x01400FC0 63 .writePending none with block := some block }
    let r := sweeping c
    let w := lastTags (sweeping d) 1
    r.grant = some .sweep ∧ r.sweep = some c ∧ LowestFree r 0 ∧ c.phase = .readPending
      ∧ r.windows[8].defn.shadow = some 0x01480000
      ∧ w.grant = some .sweep ∧ w.sweep = some d ∧ LowestFree w 63 ∧ d.phase = .writePending
      ∧ d.block = some block := by decide +kernel

/-- IssueSetsDeadline: the last sub-request of a turn, and one before it. -/
theorem witness_issueSetsDeadline :
    let q : SubRequest := ⟨63, .write, 0x10000, 1, []⟩
    let r := { issued (.host 0 .main) .write with issued := false, deadline := none }
    let s := { withTag served 63 (.inUse r) with turn := some ⟨.host 0, [q]⟩ }
    s.turn = some ⟨.host 0, q :: []⟩ ∧ s.tags[q.tag] = .inUse r
      ∧ { s with turn := some ⟨.host 0, [q, q]⟩ }.turn = some ⟨.host 0, q :: [q]⟩ := by
  decide +kernel

/-- ReadAnswerFillsBuffer: a PASS and a COND_READ entry. -/
theorem witness_readAnswerFillsBuffer :
    let r := issued (.host 0 .main) .read
    let e := entry .issued .read .pass none 1
    let f := { entry .issued .read .condRead (some 15) 1 with snapshot := some [.default] }
    let s := withTag (withEntry served e) 63 (.inUse r)
    let u := withTag (withEntry served f) 0 (.inUse r)
    s.phase ≠ .held ∧ s.tags[63] = .inUse r ∧ r.issued = true ∧ r.owner = .host 0 .main
      ∧ r.kind = .read ∧ s.entries[0] = some e ∧ e.pending = 1 ∧ e.worst = .okay
      ∧ e.action = .pass ∧ u.phase ≠ .held ∧ u.tags[0] = .inUse r ∧ u.entries[0] = some f
      ∧ f.action = .condRead ∧ f.window = some 15 ∧ f.snapshot = some [.default]
      ∧ f.pending = 1 ∧ f.worst = .okay := by decide +kernel

/-- WriteAnswerCombinesStatus: 1 and 2 pending; each action; OKAY and EXPIRED so far. -/
theorem witness_writeAnswerCombinesStatus :
    let r := issued (.host 0 .main) .write
    let e := entry .issued .write .condWrite (some 15) 1
    let f := entry .issued .write .condWriteShadow (some 15) 2
    let s := withTag (withEntry served e) 63 (.inUse r)
    let u := withTag (withEntry served f) 0 (.inUse r)
    s.phase ≠ .held ∧ s.tags[63] = .inUse r ∧ r.issued = true ∧ r.owner = .host 0 .main
      ∧ s.entries[0] = some e ∧ e.pending = 1 ∧ r.kind = .write ∧ e.worst = .okay
      ∧ e.action ≠ .condWriteShadow ∧ u.phase ≠ .held ∧ u.tags[0] = .inUse r
      ∧ u.entries[0] = some f ∧ 2 ≤ f.pending ∧ f.worst = .okay ∧ f.action = .condWriteShadow
      ∧ f.window = some 15 ∧ { f with pending := 1, worst := .expired }.worst ≠ .okay := by
  decide +kernel

/-- LateAndStrayResponses: a quarantined tag, a free one, and one not issued. -/
theorem witness_lateAndStrayResponses :
    let r := issued (.host 0 .main) .write
    let n := { r with issued := false }
    served.phase ≠ .held ∧ (withTag served 63 (.quarantined r)).tags[63] = .quarantined r
      ∧ served.tags[0] = .free ∧ (withTag served 63 (.inUse n)).tags[63] = .inUse n
      ∧ n.issued = false := by decide +kernel

/-- ExpiryQuarantinesTag: a host tag and both sweep phases, at the deadline itself. -/
theorem witness_expiryQuarantinesTag :
    let r := issued (.host 0 .main) .write
    let e := entry .issued .write .condWrite (some 15) 1
    let s := withTag (withEntry served e) 63 (.inUse r)
    let k := issued (.sweep .read) .read
    let c := sweepAt 0x01400000 0 .readOut (some 63)
    let u := withTag (sweeping c) 63 (.inUse k)
    let l := issued (.sweep .write) .write
    let d := sweepAt 0x01400FC0 63 .writeOut (some 0)
    let v := withTag (sweeping d) 0 (.inUse l)
    s.tags[63] = .inUse r ∧ r.issued = true ∧ r.deadline = some 0 ∧ 0 ≤ s.usBase
      ∧ r.owner = .host 0 .main ∧ s.entries[0] = some e ∧ 1 ≤ e.pending ∧ e.worst ≠ .denied
      ∧ e.action ≠ .condWriteShadow
      ∧ u.tags[63] = .inUse k ∧ k.issued = true ∧ k.deadline = some 0 ∧ k.owner = .sweep .read
      ∧ u.sweep = some c ∧ c.tag = some 63 ∧ c.stopping = false ∧ c.cursor < 2 ^ 32
      ∧ Registered u c.window ⟨0x40, 0x18, 0x06, 0⟩ ∧ c.phase = .readOut
      ∧ v.tags[0] = .inUse l ∧ l.issued = true ∧ l.deadline = some 0 ∧ l.owner = .sweep .write
      ∧ v.sweep = some d ∧ d.tag = some 0 ∧ d.stopping = false ∧ d.cursor < 2 ^ 32
      ∧ Registered v d.window ⟨0x40, 0x18, 0x06, 0⟩ ∧ d.phase = .writeOut := by decide +kernel

/-- Its other clauses: a COND_WRITE_SHADOW entry, a stopping sweep's write, a tag that is not the sweep's
current one, and no sweep. -/
theorem witness_expiryQuarantinesTag_others :
    let r := issued (.host 0 .shadow) .write
    let e := entry .issued .write .condWriteShadow (some 8) 2
    let s := withTag (withEntry served e) 63 (.inUse r)
    let l := issued (.sweep .write) .write
    let d := { sweepAt 0x01400FC0 63 .writeOut (some 0) with stopping := true }
    let v := withTag (sweeping d) 0 (.inUse l)
    let n := withTag (sweeping d) 1 (.inUse l)
    s.tags[63] = .inUse r ∧ s.entries[0] = some e ∧ 1 ≤ e.pending ∧ e.action = .condWriteShadow
      ∧ e.window = some 8 ∧ v.tags[0] = .inUse l ∧ v.sweep = some d ∧ d.tag = some 0
      ∧ d.stopping = true ∧ d.phase = .writeOut ∧ Registered v d.window ⟨0x40, 0x18, 0x06, 0⟩
      ∧ n.tags[1] = .inUse l ∧ n.sweep = some d ∧ d.tag ≠ some 1
      ∧ (withTag served 0 (.inUse l)).tags[0] = .inUse l ∧ served.sweep = none := by
  decide +kernel

/-- SweepFillsContext: each check, the first page too many, and the last page taken. -/
theorem witness_sweepFillsContext :
    let s := withWindow 15 (plain .storeBoth)
    let other := { s with windows := s.windows.set 0 window8 }
    (withWindow 15 (off .storeBoth)).windows[15].state ≠ .enabled
      ∧ (withWindow 15 window8).windows[15].state = .enabled
      ∧ (withWindow 15 window8).windows[15].activity ≠ .idle
      ∧ s.windows[15].state = .enabled ∧ s.windows[15].activity = .idle
      ∧ (withWindow 15 (plain .store)).windows[15].defn.mode ≠ .storeBoth
      ∧ s.windows[15].defn.mode = .storeBoth
      ∧ (∃ v : Fin 16, v ≠ 15 ∧ other.windows[v].activity = .sweeping)
      ∧ other.windows[15].state = .enabled ∧ other.windows[15].activity = .idle
      ∧ ¬∃ v : Fin 16, v ≠ 15 ∧ s.windows[v].activity = .sweeping := by decide +kernel

theorem witness_sweepFillsContext_pages :
    let p := (plain .storeBoth).defn.pages
    ¬(2 < p) ∧ ¬((0 : Half) = 2 ∨ 1 + 2 ≤ p) ∧ 1 < p ∧ 1 + 1 ≤ p ∧ 0 + 2 ≤ p ∧ LinkTakes served 1 0
      ∧ LinkTakes (withWindow 15 (plain .storeBoth)) 254 0 := by decide +kernel

/-- SweepAnswersAdvance: a read; a write with a block left; the last block's write. -/
theorem witness_sweepAnswersAdvance :
    let k := issued (.sweep .read) .read
    let c := sweepAt 0x01400000 0 .readOut (some 63)
    let u := withTag (sweeping c) 63 (.inUse k)
    let d := sweepAt 0x01400F80 62 .writeOut (some 0)
    let e := sweepAt 0x01400FC0 63 .writeOut (some 0)
    u.phase ≠ .held ∧ u.tags[63] = .inUse k ∧ k.issued = true ∧ k.owner = .sweep .read
      ∧ u.sweep = some c ∧ c.tag = some 63 ∧ c.phase = .readOut
      ∧ (sweeping d).sweep = some d ∧ d.phase = .writeOut ∧ d.stopping = false
      ∧ d.cursor + 64 < d.stop ∧ lastBlock.sweep = some e ∧ e.stop ≤ e.cursor + 64
      ∧ lastBlock.tags[0] = .inUse
          { issued (.sweep .write) .write with addr := 0x01400FC0, hostTag := none }
      ∧ Registered lastBlock e.window ⟨0x40, 0x18, 0x06, 0⟩ := by decide +kernel

/-- SweepAnswersEndSweep: a tag not current, no sweep, each failing phase, a stopping write. -/
theorem witness_sweepAnswersEndSweep :
    let k := issued (.sweep .read) .read
    let c := sweepAt 0x01400000 0 .readOut (some 63)
    let u := withTag (sweeping c) 63 (.inUse k)
    let e := { sweepAt 0x01400FC0 63 .writeOut (some 0) with stopping := true }
    let v := withTag (sweeping e) 0 (.inUse (issued (.sweep .write) .write))
    u.phase ≠ .held ∧ u.tags[63] = .inUse k ∧ k.issued = true ∧ k.owner = .sweep .read
      ∧ (sweepAt 0x01400000 0 .readIssuing (some 0)).tag ≠ some 63
      ∧ (withTag served 63 (.inUse k)).sweep = none ∧ u.sweep = some c ∧ c.tag = some 63
      ∧ Registered u c.window ⟨0x40, 0x18, 0x06, 0⟩ ∧ c.stopping = false ∧ c.cursor < 2 ^ 32
      ∧ c.phase = .readOut ∧ (sweepAt 0x01400FC0 63 .writeOut (some 0)).phase = .writeOut
      ∧ v.sweep = some e ∧ v.tags[0] = .inUse (issued (.sweep .write) .write) ∧ e.tag = some 0
      ∧ Registered v e.window ⟨0x40, 0x18, 0x06, 0⟩ ∧ e.stopping = true ∧ e.phase = .writeOut
      ∧ e.cursor + 64 < 2 ^ 32 := by decide +kernel

/-- AbortStopsSweepOrCapture: off, idle; a sweep whose write is not produced, and one whose write is;
a capture. -/
theorem witness_abortStopsSweepOrCapture :
    let c := sweepAt 0x01400000 0 .readPending none
    let s := sweeping c
    let k : Capture := ⟨1, 4, 50, 500, 15, 50⟩
    LinkTakes s 1 1 ∧ (withWindow 15 (off .store)).windows[15].state ≠ .enabled
      ∧ (withWindow 15 (plain .store)).windows[15].activity = .idle
      ∧ s.windows[8].state = .enabled ∧ s.windows[8].activity = .sweeping ∧ s.sweep = some c
      ∧ c.window = 8 ∧ c.cursor < 2 ^ 32 ∧ Registered s 8 ⟨0x40, 0x18, 0x06, 0⟩
      ∧ c.phase ≠ .writeIssuing ∧ c.phase ≠ .writeOut
      ∧ LinkTakes lastBlock 254 1 ∧ lastBlock.windows[8].activity = .sweeping
      ∧ (sweepAt 0x01400FC0 63 .writeOut (some 0)).phase = .writeOut
      ∧ LinkTakes (capturing k) 254 1 ∧ (capturing k).windows[10].state = .enabled
      ∧ (capturing k).windows[10].activity = .zeroing ∧ (capturing k).captures[10] = some k
      ∧ Registered (capturing k) 10 ⟨0x30, 0x1A, 0x07, 0⟩ := by decide +kernel

/-- The checks of DefineReplacesDefinition on the fields of a DEFINE. -/
def goodDefine (base : Word) (pages : Half) (mode format count flags : Byte) (shadow : Word) : Bool :=
  decide (base.toNat % 4096 = 0 ∧ 1 ≤ pages.toNat ∧ pages.toNat ≤ 4096
    ∧ base.toNat + pages.toNat * 4096 ≤ 2 ^ 32 ∧ mode.toNat ≤ 2 ∧ format.toNat ≤ 4
    ∧ (count = 1 ∨ count = 2 ∨ count = 4) ∧ (flags.getLsbD 0 = true ↔ mode = 2)
    ∧ (flags.getLsbD 0 = true → shadow.toNat % 4096 = 0
        ∧ shadow.toNat + pages.toNat * 4096 ≤ 2 ^ 32
        ∧ (shadow.toNat + pages.toNat * 4096 ≤ base.toNat
          ∨ base.toNat + pages.toNat * 4096 ≤ shadow.toNat)))

/-- DefineReplacesDefinition: an ENABLED window; a DISABLED one; a definition up to 2^32 with its
shadow just below it, one at the top page, one a page too long, and one with each field a step too
high. -/
theorem witness_defineReplacesDefinition :
    (withWindow 15 (plain .store)).windows[15].state ≠ .disabled
      ∧ (withWindow 15 (off .store)).windows[15].state = .disabled
      ∧ goodDefine 0xFF000000 4096 2 4 4 1 0xFE000000 = true
      ∧ goodDefine 0xFFFFF000 1 0 0 1 0 0 = true
      ∧ goodDefine 0xFF000000 4097 1 4 4 0 0 = false ∧ goodDefine 0 1 1 5 1 0 0 = false
      ∧ goodDefine 0 1 1 0 3 0 0 = false ∧ goodDefine 0 1 2 0 1 0 0 = false := by
  decide +kernel

/-- SetChannelReplacesRecord: a busy window, a channel at the count, equal clamps, each mode. -/
theorem witness_setChannelReplacesRecord :
    let s := withWindow 15 (plain .storeBoth)
    let t := withWindow 15 (off .storeBoth)
    ¬((withWindow 8 window8).windows[8].state = .disabled
        ∨ (withWindow 8 window8).windows[8].state = .enabled
          ∧ (withWindow 8 window8).windows[8].activity = .idle)
      ∧ s.windows[15].state = .enabled ∧ s.windows[15].activity = .idle
      ∧ t.windows[15].state = .disabled
      ∧ ¬((2 : Byte).toNat < s.windows[15].defn.count) ∧ (1 : Byte).toNat < s.windows[15].defn.count
      ∧ (0x8000 : Half).toInt ≤ (0x8000 : Half).toInt ∧ s.windows[15].defn.mode = .storeBoth := by
  decide +kernel

/-- EnableChecksConflictAndTraffic: a meeting at one byte; an unmatched write queued; a quarantined
write; neither. -/
theorem witness_enableChecksConflictAndTraffic :
    let s := withWindow 15 (off .store)
    let v := { s with windows := s.windows.set 0 (plain .storeBoth) }
    let e := entry .queued .write .pass none 0
    let r := issued (.host 0 .main) .write
    s.windows[15].state = .disabled ∧ (withWindow 15 (plain .store)).windows[15].state ≠ .disabled
      ∧ v.windows[15].state = .disabled ∧ v.windows[0].state ≠ .disabled
      ∧ v.windows[0].defn.base.toNat ≤ 0x11FFF ∧ 0x11FFF < v.windows[15].defn.base.toNat + 2 * 4096
      ∧ (withEntry s e).entries[0] = some e ∧ e.state ≠ .ready ∧ e.window = none ∧ e.kind = .write
      ∧ (off .store).defn.base.toNat ≤ e.addr.toNat
      ∧ (withTag s 63 (.quarantined r)).tags[63] = .quarantined r ∧ r.kind = .write
      ∧ (∀ u : Fin 16, u ≠ 15 → s.windows[u].state = .disabled)
      ∧ (∀ i : Fin 32, s.entries[i] = none) ∧ ∀ t : Fin 64, s.tags[t] = .free := by
  decide +kernel

/-- DisableDrainsOrEnds. -/
theorem witness_disableDrainsOrEnds :
    (off .store).state ≠ .enabled ∧ window8.state = .enabled ∧ window8.activity ≠ .idle
      ∧ (plain .store).state = .enabled ∧ (plain .store).activity = .idle
      ∧ (plain .store).inflight = 0 ∧ 1 ≤ { plain .store with inflight := 1 }.inflight
      ∧ (withWindow 15 (plain .store)).windows[15] = plain .store
      ∧ LinkTakes (withWindow 15 (plain .store)) 254 0 := by decide +kernel

/-- QueryReportsWindow: channel 4 and 3; below the count and at it; sweeping; zeroing. -/
theorem witness_queryReportsWindow :
    let c := sweepAt 0x01400000 0 .readPending none
    let k : Capture := ⟨1, 12, 50, 500, 15, 50⟩
    4 ≤ (4 : Byte).toNat ∧ (3 : Byte).toNat < 4 ∧ (1 : Byte).toNat < (plain .store).defn.count
      ∧ (plain .store).chans[(1 : Byte).toNat]? = some .default
      ∧ (plain .store).defn.count ≤ (2 : Byte).toNat
      ∧ (sweeping c).windows[8].activity = .sweeping ∧ (sweeping c).sweep = some c
      ∧ c.cursor < 2 ^ 32 ∧ LinkTakes (sweeping c) 254 1
      ∧ (capturing k).windows[10].activity = .zeroing ∧ (capturing k).captures[10] = some k
      ∧ LinkTakes (capturing k) 1 1 := by decide +kernel

/-- ReadStatsReportsAndClears: slot 4 and 3; an empty record and another. -/
theorem witness_readStatsReportsAndClears :
    let r : Stats := ⟨4294967295, 1, some (-32768), some 32767⟩
    let s := { served with stats := served.stats.set 15 (served.stats[15].set 3 r) }
    4 ≤ (4 : Byte).toNat ∧ (3 : Byte).toNat = (3 : Fin 4).val ∧ (s.stats[15])[3] = r
      ∧ (served.stats[15])[3].min = none ∧ (served.stats[15])[3].max = none
      ∧ LinkTakes s 254 0 := by decide +kernel

/-- SampleReachesStatsAndMonitors: a full and an empty record; each crossing, watched and not. -/
theorem witness_sampleReachesStatsAndMonitors :
    let b : MonBind := ⟨15, 3, 1000, 200, .rising, .oneShot⟩
    let m : Monitor := ⟨.armed, some b, .below, 65535, none⟩
    let s := { served with monitors := served.monitors.set 15 m }
    let x : Sample := ⟨3, 0x10006, ⟨1000, 1000, true⟩⟩
    x.channel = (3 : Fin 4).val ∧ (served.stats[15])[3].samples = 0 ∧ x.result.clipped = true
      ∧ (served.stats[15])[3].clipped < 4294967295 ∧ served.windows[15].state ≠ .enabled
      ∧ s.monitors[15].bind = some b ∧ s.monitors[15].state = .armed ∧ b.window = 15
      ∧ b.channel = x.channel ∧ classify .below 1000 200 1000 = (.above, some .rising)
      ∧ b.direction.watches .rising = true ∧ classify .above 1000 200 799 = (.below, some .falling)
      ∧ b.direction.watches .falling = false ∧ b.window ≠ 14 ∧ served.monitors[0].bind = none
      ∧ (withWindow 15 (plain .store)).windows[15].state = .enabled := by decide +kernel

/-- ClassifyFollowsTable: the level, one below it, and the fall-back value. -/
theorem witness_classifyFollowsTable :
    (1000 : Int) ≤ 1000 ∧ (999 : Int) < 1000 ∧ (799 : Int) < 1000 - (200 : Nat)
      ∧ (1000 : Int) - (200 : Nat) ≤ 800 := by decide

/-- CaptureAccumulatesAndCompletes: no capture; another channel; one sample short of the last; the
last. -/
theorem witness_captureAccumulatesAndCompletes :
    let k : Capture := ⟨1, 4, 50, 940, 15, 50⟩
    let s := capturing k
    served.captures[15] = none ∧ s.captures[10] = some k ∧ 0 ≠ k.channel ∧ k.count + 1 = 2 ^ k.n
      ∧ { k with count := 14 }.count + 1 < 2 ^ k.n
      ∧ s.windows[10].chans[k.channel]? = some ⟨16384, 40, 0x8000, 70⟩
      ∧ Registered s 10 ⟨0x30, 0x1A, 0x07, 0⟩ ∧ 1 ≤ k.n := by decide +kernel

/-- ZeroCaptureStartsAndTimesOut: each check at its ends, and the deadline itself. -/
theorem witness_zeroCaptureStartsAndTimesOut :
    let good := fun (x : Window) (channel n : Byte) (limit : Half) =>
      channel.toNat < x.defn.count ∧ 4 ≤ n.toNat ∧ n.toNat ≤ 12 ∧ limit ≠ 0
    let k : Capture := ⟨1, 4, 50, 940, 15, 50⟩
    let s := { capturing k with usBase := 50000 }
    (off .store).state ≠ .enabled ∧ window8.state = .enabled ∧ window8.activity ≠ .idle
      ∧ good (plain .store) 1 4 1 ∧ good (plain .store) 0 12 0xFFFF ∧ ¬good (plain .store) 2 4 1
      ∧ ¬good (plain .store) 1 3 1 ∧ ¬good (plain .store) 1 13 1 ∧ ¬good (plain .store) 1 4 0
      ∧ LinkTakes (withWindow 15 (plain .store)) 254 0 ∧ s.captures[10] = some k
      ∧ k.deadline ≤ s.usBase / 1000 ∧ k.count < 2 ^ k.n
      ∧ Registered s 10 ⟨0x30, 0x1A, 0x07, 0⟩ := by decide +kernel

/-- MonSetAndArm, MonReleaseUnbinds and MonQueryReportsMonitor: monitor 16 and 15; each value at its
end. -/
theorem witness_monitorCommands :
    let b : MonBind := ⟨15, 1, 1000, 4095, .both, .oneShot⟩
    let m : Monitor := ⟨.tripped, some b, .below, 65535, some ⟨.falling, -32768, 0x10002, 9⟩⟩
    let s := { withWindow 15 (plain .store) with monitors := served.monitors.set 15 m }
    16 ≤ (16 : Byte).toNat ∧ (15 : Byte).toNat = (15 : Fin 16).val ∧ 4095 < (4096 : Half).toNat
      ∧ 2 < (3 : Byte).toNat ∧ 1 < (2 : Byte).toNat
      ∧ s.windows[15].defn.count ≤ (2 : Byte).toNat ∧ (1 : Byte).toNat < s.windows[15].defn.count
      ∧ (4095 : Half).toNat ≤ 4095 ∧ Direction.both.code = 2 ∧ MonMode.oneShot.code = 1
      ∧ s.monitors[0].state = .unbound ∧ s.monitors[15].state ≠ .unbound
      ∧ s.monitors[15].bind = some b ∧ s.monitors[0].bind = none ∧ s.monitors[0].record = none
      ∧ s.monitors[15].record = some ⟨.falling, -32768, 0x10002, 9⟩ ∧ LinkTakes s 254 0 := by
  decide +kernel

/-- TimebaseCountsAndIsSet: a tag's deadline, a capture's and a gap that the next step of the base does not
reach, and the one after it does. -/
theorem witness_timebaseCountsAndIsSet_deadlines :
    let r : TagRecord := { issued (.host 0 .main) .write with deadline := some 50000 }
    let s := { withTag (capturing ⟨1, 4, 50, 940, 15, 50⟩) 63 (.inUse r) with
      usBase := 49998, rx := ⟨.payload, [4, 0, 1, 9], 48000⟩ }
    s.tagDeadline 63 = some 50000 ∧ s.rx.state ≠ .hunt ∧ DeadlinesFrom s (s.usBase + 2)
      ∧ ¬DeadlinesFrom s (s.usBase + 3) ∧ .lineBreak ∉ ([.expiry 63] : List StepEvent)
      ∧ .lineBreak ∉ ([] : List StepEvent) := by
  decide +kernel

/-- TimebaseCountsAndIsSet: each source and edge, before and after the load. -/
theorem witness_timebaseCountsAndIsSet :
    let b := { served with tbSource := .strobe, tbEdge := .falling }
    served.phase = .serving ∧ served.tbSource = .internal ∧ b.tbSource = .strobe
      ∧ b.tbEdge = .falling ∧ b.tbEdge ≠ .rising
      ∧ ¬(State.reset.phase = .loaded ∨ State.reset.phase = .serving)
      ∧ 1 < (2 : Byte).toNat ∧ (1 : Byte).toNat ≤ 1 := by decide +kernel

/-- OfferedFaultCoalescesAppendsOrDrops: a list of 1, of 7 and of 8, whose newest is like the fault or
not. -/
theorem witness_offeredFaultCoalescesAppendsOrDrops :
    let r : FaultRecord := ⟨⟨.late, .host, some 9, some 0x00B00010, some 1⟩, 340, 255⟩
    let f : FaultInfo := ⟨.late, .host, some 9, none, none⟩
    let g : FaultInfo := ⟨.late, .host, some 8, none, none⟩
    let full := { served with faults := List.replicate 7 r ++ [r] }
    let room := { served with faults := List.replicate 6 r ++ [r] }
    full.faults = List.replicate 7 r ++ [r]
      ∧ (r.info.kind = f.kind ∧ r.info.origin = f.origin ∧ r.info.window = f.window)
      ∧ ¬(r.info.kind = g.kind ∧ r.info.origin = g.origin ∧ r.info.window = g.window)
      ∧ (∀ x ∈ full.faults, x = r) ∧ (∀ x ∈ room.faults, x = r)
      ∧ 8 ≤ full.faults.length ∧ room.faults.length < 8 ∧ served.phase = .serving
      ∧ { served with notices := List.replicate 7 ⟨0, .fault r⟩ }.notices.length < 8
      ∧ ¬({ served with notices := List.replicate 8 ⟨0, .fault r⟩ }.notices.length < 8)
      ∧ ¬(State.reset.phase = .loaded ∨ State.reset.phase = .serving) := by decide +kernel

/-- FaultCommandsReportAndRemove. -/
theorem witness_faultCommandsReportAndRemove :
    served.faults = [] ∧ LinkTakes served 1 0 ∧ LinkTakes oneFault 254 0
      ∧ oneFault.faults = ⟨⟨.late, .host, some 9, some 0x00B00010, some 1⟩, 340, 1⟩ :: [] := by
  decide +kernel

/-- ReceiverFollowsTableAndGap: each row of R158 at the ends of its lengths, and the gap and a byte at
2 ms and before it. -/
theorem witness_receiverFollowsTableAndGap :
    let rx := fun st bs => { served with rx := ⟨st, bs, 0⟩ }
    let full := 48 :: List.replicate 51 (0 : Byte)
    let c := crc16 [0, 0, 1, 9]
    served.phase = .serving ∧ served.breakLow = false ∧ served.rx.state = .hunt
      ∧ (0xA4 : Byte) ≠ 0xA5 ∧ (48 : Byte).toNat ≤ 48 ∧ 48 < (49 : Byte).toNat
      ∧ (rx .header []).rx.bytes.length = 0 ∧ (rx .header [0]).rx.bytes.length = 1
      ∧ (rx .header [0, 0, 1]).rx.bytes.length = 3
      ∧ (rx .payload (full.take 50)).rx.bytes.length + 1 < 4 + 48
      ∧ (rx .payload (full.take 51)).rx.bytes.length + 1 = 4 + 48
      ∧ (rx .check full).rx.bytes.length = 4 + 48
      ∧ (rx .check [0, 0, 1, 9, c.setWidth 8]).rx.bytes.length = 5 + 0
      ∧ crc16 ([0, 0, 1, 9, c.setWidth 8].take 4) = (c >>> 8).setWidth 8 ++ c.setWidth 8
      ∧ crc16 ([0, 0, 1, 9, c.setWidth 8].take 4) ≠ (~~~(c >>> 8)).setWidth 8 ++ c.setWidth 8
      ∧ { rx .header [] with usBase := 2000 }.rx.state ≠ .hunt
      ∧ { rx .header [] with usBase := 2000 }.rx.lastAt + 2000 ≤ 2000
      ∧ { rx .header [] with usBase := 1999 }.usBase < (rx .header []).rx.lastAt + 2000 := by
  decide +kernel

/-- BreakClearsUnsent: at 1 ms and before it, and during a BREAK. -/
theorem witness_breakClearsUnsent :
    let s := { served with rxHighAt := 7, usBase := 1007 }
    s.phase = .serving ∧ s.breakLow = false ∧ s.rxHighAt + 1000 ≤ s.usBase
      ∧ { s with usBase := 1006 }.usBase < s.rxHighAt + 1000
      ∧ { served with breakLow := true }.breakLow = true := by decide +kernel

/-- TransmitterFollowsTable: a reply alone, with a notice after 3 and after 4 replies, a notice
alone, neither, and each kind of packet in progress. -/
theorem witness_transmitterFollowsTable :
    let r : Reply := ⟨0, .ok, 1, []⟩
    let n : Notice := ⟨0, .fault ⟨⟨.stray, .host, none, none, none⟩, 0, 1⟩⟩
    let s := { served with slots := served.slots.set 15 (.queued r), replyQueue := [15] }
    let t := { s with notices := [n] }
    s.phase = .serving ∧ s.breakLow = false ∧ s.tx = .idle ∧ s.replyQueue = 15 :: []
      ∧ s.slots[15] = .queued r ∧ s.notices = [] ∧ t.notices = n :: []
      ∧ { t with runCount := 3 }.runCount < 4 ∧ 4 ≤ { t with runCount := 4 }.runCount
      ∧ served.replyQueue = [] ∧ served.notices = []
      ∧ { served with tx := .sending (some 15) [0] }.tx = .sending (some 15) [0]
      ∧ { served with tx := .sending none [0] }.tx = .sending none [0]
      ∧ { s with tx := .cutOff [0] }.tx = .cutOff [0] := by decide +kernel

/-- DispatcherRefusals: no slot free; the last slot; a pending TRN; each refusal. -/
theorem witness_dispatcherRefusals :
    let none_ := { lastSlot with slots := lastSlot.slots.set 15 (.held 7 0x13) }
    let dup := withDeferred served 254 0x13 0x04
    (∀ k : Fin 16, none_.slots[k] ≠ .free) ∧ lastSlot.slots[15] = .free
      ∧ (∀ j : Fin 16, j < 15 → lastSlot.slots[j] ≠ .free) ∧ (∃ d ∈ dup.deferred, d.trn = 254)
      ∧ dup.slots[1] = .free ∧ (∀ j : Fin 16, j < 1 → dup.slots[j] ≠ .free)
      ∧ (∀ d ∈ lastSlot.deferred, d.trn ≠ 254)
      ∧ ¬((0x0F : Byte) = 0x00 ∨ (0x10 ≤ (0x0F : Byte).toNat ∧ (0x0F : Byte).toNat ≤ 0x1F)
          ∨ (0x0F : Byte) = 0x20 ∨ (0x0F : Byte) = 0x30 ∨ (0x0F : Byte) = 0x40)
      ∧ unitOf 0x1F = some (.window 15) ∧ commandLength (.window 15) 0x0A = none
      ∧ commandLength (.window 15) 0x01 = some 14 ∧ (List.replicate 15 (0 : Byte)).length ≠ 14 := by
  decide +kernel

/-- GetIdentityReports, GetStatusReports, LimitsAndCounters: the link takes the command, with a sweep
running and with none. -/
theorem witness_coreCommands :
    let s := sweeping (sweepAt 0x01400000 0 .readPending none)
    LinkTakes s 1 1 ∧ (∀ v : Fin 16, some 8 = some v ↔ s.windows[v].activity = .sweeping)
      ∧ ∀ v : Fin 16, none = some v ↔ served.windows[v].activity = .sweeping := by decide +kernel

/-- BootCommitAndQuery: a pending commit, the last generation, and each active copy. -/
theorem witness_bootCommitAndQuery :
    let p : PendingCommit := ⟨7, .b, 2, defaultImage⟩
    let s := { served with boot := ⟨some 1, none, some .a, some p⟩ }
    let f := { served with boot := ⟨some 0xFFFFFFFF, none, some .a, none⟩ }
    LinkTakes s 1 0 ∧ s.boot.commit = some p ∧ f.boot.commit = none ∧ f.boot.active = some .a
      ∧ f.boot.genA = some 0xFFFFFFFF ∧ served.boot.commit = none ∧ served.boot.active ≠ some .a := by
  decide +kernel

/-- CommitEndAnswers: bytes read back that are not those of a copy of another generation; a blank copy
has a payload's length. -/
theorem witness_commitEndAnswers_bytes (i : BootImage) :
    (List.replicate 892 (0xFF : Byte)).length = 892
      ∧ List.replicate 892 (0xFF : Byte) ≠ (writtenCopy 1 i).bytes.drop 4
      ∧ blankCopy.payload.length = 884 := by
  refine ⟨List.length_replicate, fun h => ?_, by decide +kernel⟩
  have h' : (0xFF : Byte) = 1 := congrArg (·.headD 0) h
  exact absurd h' (by decide)

/-- CommitEndAnswers: a pending commit of each copy, with its reply deferred. -/
theorem witness_commitEndAnswers :
    let p : PendingCommit := ⟨7, .a, 1, defaultImage⟩
    let d : DeferredEntry := ⟨7, 0x40, 0x01, 0⟩
    let s := { withDeferred served 7 0x40 0x01 with boot := ⟨none, none, none, some p⟩ }
    s.boot.commit = some p ∧ s.deferred.find? (·.trn = p.trn) = some d
      ∧ (0 : Word) ≠ 0x5A3C9617 ∧ (0x5A3C9616 : Word) ≠ 0x5A3C9617 ∧ p.target = .a ∧ { p with target := .b }.target = .b := by
  decide +kernel

/-- BootReloadLoadsActiveCopy: a pending commit, a window in service, and neither. -/
theorem witness_bootReloadLoadsActiveCopy :
    let out := fun (s : State) => ∀ w : Fin 16, s.windows[w].state = .disabled
      ∧ s.windows[w].activity = .idle ∧ s.windows[w].deferred = none
    LinkTakes served 1 0 ∧ served.boot.commit = none ∧ out served
      ∧ ¬out (withWindow 15 (plain .store))
      ∧ { served with boot := ⟨none, none, none, some ⟨7, .a, 1, defaultImage⟩⟩ }.boot.commit ≠ none := by
  decide +kernel

/-- ScaleRoundsToNearest, SampleIsConvertedAndClamped: values at the ends of the ranges. -/
theorem witness_arithmetic :
    (-32768 : Int) ≤ -32768 ∧ (32767 : Int) ≤ 32767
      ∧ ChanRec.default.low.toInt ≤ ChanRec.default.high.toInt
      ∧ (condition .s16 ⟨32768, 0, 0x8000, 0x7FFF⟩ 0x8000).pre < (0x8000 : Half).toInt
      ∧ (0x7FFF : Half).toInt < (condition .s16 ⟨32768, 0, 0x8000, 0x7FFF⟩ 0x7FFF).pre
      ∧ (condition .s16 .default 0x8000).pre = ChanRec.default.low.toInt
      ∧ (0x7FFF : Half).toNat ≤ 0x7FFF ∧ 0x8000 ≤ (0x8000 : Half).toNat
      ∧ ((0x07FF : Half) &&& 0x0FFF).toNat ≤ 0x7FF ∧ 0x800 ≤ ((0x0800 : Half) &&& 0x0FFF).toNat := by
  decide

/-- ConditionedBurstKeepsShape: a word of a burst with a complete lane and an empty one. -/
theorem witness_conditionedBurstKeepsShape :
    let x : WriteWord := ⟨0xC00F1234, 12⟩
    [x][0]? = some x ∧ x.enables.getLsbD 0 = false ∧ x.enables.getLsbD 1 = false
      ∧ x.enables.getLsbD 2 = true ∧ x.enables.getLsbD 3 = true := by decide

/-- CommandRowsAreTheirPackets: a row that is a packet. -/
theorem witness_commandRowsAreTheirPackets :
    commandPacket (.setLimits 254 0x0102) = some ⟨0x00, 0x03, 254, [0x02, 0x01]⟩ := by decide

/-- FramedPacketIsReceived: payloads of 0 and of 48 bytes, from HUNT. -/
theorem witness_framedPacketIsReceived :
    served.phase = .serving ∧ served.breakLow = false ∧ served.rx.state = .hunt
      ∧ ([] : List Byte).length ≤ 48 ∧ (List.replicate 48 (0xA5 : Byte)).length ≤ 48 := by
  decide +kernel

/-- BootImageRoundTrip: the default image, and one with a window of the largest count and a monitor
of the largest fields. -/
theorem witness_bootImageRoundTrip :
    let b : BootWindow :=
      ⟨⟨0xFF000000, 4096, .storeBoth, some 0, .u12l, 4⟩, List.replicate 4 .default, true⟩
    let i := { defaultImage with
      windows := defaultImage.windows.set 15 b
      monitors := defaultImage.monitors.set 15 (some ⟨15, 255, 0x8000, 65535, .both, .oneShot⟩) }
    (∀ w : Fin 16, i.windows[w].defn.pages < 65536
      ∧ (i.windows[w].defn.count = 1 ∨ i.windows[w].defn.count = 2 ∨ i.windows[w].defn.count = 4)
      ∧ i.windows[w].chans.length = i.windows[w].defn.count)
    ∧ (∀ m : Fin 16, (i.monitors[m]).all (fun c => c.channel < 256 ∧ c.hysteresis < 65536) = true) := by
  decide +kernel

/-- The factory's image is sound (R188). -/
theorem factory_sound : ImageSound (decodeImage State.reset.copyA.payload) := by decide +kernel

/-- FaultListStaysSound, LinkStaysSound, LifecycleStaysSound, InFlightStaysExact, TrackingStaysSound
and OverlapLawHolds: each invariant holds of the part in service with a command waiting, and that part steps on. -/
theorem witness_invariants :
    let s := { served with pending := [.getIdentity 1] }
    FaultListSound s ∧ LinkSound s ∧ LifecycleSound s ∧ InFlightSound s ∧ TrackingSound s
      ∧ OverlapSound s ∧ step s = .next (after (step s)) ∧ (after (step s)).replyQueue = [0] := by
  refine ⟨?_, ?_, ?_, ?_, ?_, ?_, rfl, rfl⟩
  · decide +kernel
  · decide +kernel
  · decide +kernel
  · decide +kernel
  · decide +kernel
  · refine ⟨by decide +kernel, by decide +kernel, fun _ => factory_sound, fun h => ?_, nofun⟩
    exact absurd h (by decide +kernel)

end Sys2Proof.Tests
end

/-! PROOFS. Sample conditioning arithmetic (chapter 2): the five conversions, scaling as a floor, the
clamp, and the two statements they settle. -/

namespace Sys2Proof.Machine

/-! ### Masks and shifts of a raw value -/

/-- The mask of R26 keeps the low 12 bits. -/
theorem toNat_and_0x0FFF (r : Half) : (r &&& 0x0FFF).toNat = r.toNat % 4096 :=
  Nat.and_two_pow_sub_one_eq_mod r.toNat 12

/-- The mask that clears the spare low 4 bits of `u12l`. -/
theorem toNat_and_0xFFF0 (r : Half) : (r &&& 0xFFF0).toNat = r.toNat / 16 * 16 := by
  have hmask : r &&& (0xFFF0 : Half) = (r >>> 4) <<< 4 := by
    have hones : (0xFFF0 : Half) = BitVec.allOnes 16 <<< 4 := rfl
    rw [hones, BitVec.shiftLeft_ushiftRight]
  rw [hmask, BitVec.toNat_shiftLeft, BitVec.toNat_ushiftRight, Nat.shiftLeft_eq,
    Nat.shiftRight_eq_div_pow]
  omega

theorem toNat_shiftLeft_four (r : Half) : (r <<< 4).toNat = r.toNat % 4096 * 16 := by
  rw [BitVec.toNat_shiftLeft, Nat.shiftLeft_eq]
  omega

/-! ### The five conversions (R26, R27) -/

theorem convert_s16_of_le {r : Half} (h : r.toNat ≤ 0x7FFF) : convert .s16 r = r.toNat :=
  BitVec.toInt_eq_toNat_of_lt (by omega)

theorem convert_s16_of_ge {r : Half} (h : 0x8000 ≤ r.toNat) :
    convert .s16 r = (r.toNat : Int) - 65536 := by
  simp only [convert, BitVec.toInt_eq_toNat_cond]
  omega

/-- The spare low 4 bits of `u12l` play no part: the value is that of `u16` with them cleared. -/
theorem convert_u12l_eq_u16 (r : Half) : convert .u12l r = convert .u16 (r &&& 0xFFF0) := by
  simp only [convert, toNat_and_0xFFF0]
  omega

/-- Moving the field of `u12r` up drops its spare high 4 bits and gives the field of `u12l`. -/
theorem convert_u12r_eq_u12l (r : Half) : convert .u12r r = convert .u12l (r <<< 4) := by
  simp only [convert, toNat_shiftLeft_four]
  omega

theorem convert_s12r (r : Half) : convert .s12r r = signed12 (r &&& 0x0FFF).toNat * 16 := by
  rw [toNat_and_0x0FFF, convert]

/-- The spare high 4 bits of `s12r` play no part. -/
theorem convert_s12r_and (r : Half) : convert .s12r r = convert .s12r (r &&& 0x0FFF) := by
  rw [convert_s12r, convert_s12r, BitVec.and_assoc, BitVec.and_self]

theorem signed12_of_le {f : Nat} (h : f ≤ 0x7FF) : signed12 f = f :=
  if_pos (by omega)

theorem signed12_of_ge {f : Nat} (h : 0x800 ≤ f) : signed12 f = (f : Int) - 4096 :=
  if_neg (by omega)

/-- Every format converts into the signed 16-bit range. -/
theorem convert_range (f : RawFormat) (r : Half) :
    -32768 ≤ convert f r ∧ convert f r ≤ 32767 := by
  have hr : r.toNat < 65536 := r.isLt
  cases f with
  | s16 => exact ⟨r.le_toInt, Int.le_of_lt_add_one r.toInt_lt⟩
  | u16 | u12r | u12l => simp only [convert]; omega
  | s12r => simp only [convert, signed12]; omega

/-! ### Scaling (R28) -/

/-- The floor of R28 by its two bounds: the one property of `scale` that the others follow from. -/
theorem scale_eq_iff (x s : Int) (g : Half) :
    scale x g = s ↔ 16384 * s ≤ x * g.toNat + 8192 ∧ x * g.toNat + 8192 < 16384 * (s + 1) := by
  rw [scale]
  omega

theorem scale_bounds (x : Int) (g : Half) :
    16384 * scale x g ≤ x * g.toNat + 8192 ∧ x * g.toNat + 8192 < 16384 * (scale x g + 1) :=
  (scale_eq_iff x _ g).mp rfl

theorem scale_unity (x : Int) : scale x 16384 = x := by
  rw [scale_eq_iff]
  have hg : (16384 : Half).toNat = 16384 := rfl
  rw [hg]
  omega

theorem scale_zero (x : Int) : scale x 0 = 0 := by
  rw [scale_eq_iff]
  simp

/-- The floor is monotone and the gain is not negative. -/
theorem scale_mono {x x' : Int} (g : Half) (h : x ≤ x') : scale x g ≤ scale x' g :=
  Int.ediv_le_ediv (by decide)
    (Int.add_le_add_right (Int.mul_le_mul_of_nonneg_right h (Int.natCast_nonneg _)) 8192)

theorem scale_range {x : Int} (g : Half) (hlow : -32768 ≤ x) (hhigh : x ≤ 32767) :
    -131070 ≤ scale x g ∧ scale x g ≤ 131066 := by
  have hg : g.toNat < 65536 := g.isLt
  have hmin : -131070 ≤ scale (-32768) g := by rw [scale]; omega
  have hmax : scale 32767 g ≤ 131066 := by rw [scale]; omega
  exact ⟨hmin.trans (scale_mono g hlow), (scale_mono g hhigh).trans hmax⟩

/-! ### Offset, clamp and encoding (R29, R30, R32) -/

theorem toInt_range (v : Half) : -32768 ≤ v.toInt ∧ v.toInt ≤ 32767 :=
  ⟨v.le_toInt, Int.le_of_lt_add_one v.toInt_lt⟩

theorem condition_pre (f : RawFormat) (c : ChanRec) (r : Half) :
    (condition f c r).pre = scale (convert f r) c.gain + c.offset.toInt := by
  simp only [condition]
  split_ifs <;> rfl

/-- The pre-clamp value of a sample, between the extremes of scaling and of the offset together. -/
theorem condition_pre_range (f : RawFormat) (c : ChanRec) (r : Half) :
    -163838 ≤ (condition f c r).pre ∧ (condition f c r).pre ≤ 163833 := by
  obtain ⟨hlow, hhigh⟩ := convert_range f r
  have hscale := scale_range c.gain hlow hhigh
  have hoffset := toInt_range c.offset
  rw [condition_pre]
  omega

section
variable {f : RawFormat} {c : ChanRec} {r : Half}

theorem condition_of_pre_lt_low (h : (condition f c r).pre < c.low.toInt) :
    (condition f c r).y = c.low.toInt ∧ (condition f c r).clipped = true := by
  rw [condition_pre] at h
  simp [condition, h]

theorem condition_of_pre_mem (hlow : c.low.toInt ≤ (condition f c r).pre)
    (hhigh : (condition f c r).pre ≤ c.high.toInt) :
    (condition f c r).y = (condition f c r).pre ∧ (condition f c r).clipped = false := by
  rw [condition_pre] at hlow hhigh
  simp [condition, hlow.not_gt, hhigh.not_gt]

theorem condition_of_high_lt_pre (hc : c.low.toInt ≤ c.high.toInt)
    (h : c.high.toInt < (condition f c r).pre) :
    (condition f c r).y = c.high.toInt ∧ (condition f c r).clipped = true := by
  rw [condition_pre] at h
  simp [condition, h, (hc.trans h.le).not_gt]

theorem condition_y_mem (f : RawFormat) (r : Half) (hc : c.low.toInt ≤ c.high.toInt) :
    c.low.toInt ≤ (condition f c r).y ∧ (condition f c r).y ≤ c.high.toInt := by
  rcases lt_or_ge (condition f c r).pre c.low.toInt with hbelow | hlow
  · obtain ⟨hy, -⟩ := condition_of_pre_lt_low hbelow
    exact ⟨hy.ge, hy.le.trans hc⟩
  · rcases lt_or_ge c.high.toInt (condition f c r).pre with habove | hhigh
    · obtain ⟨hy, -⟩ := condition_of_high_lt_pre hc habove
      exact ⟨hc.trans hy.ge, hy.le⟩
    · obtain ⟨hy, -⟩ := condition_of_pre_mem hlow hhigh
      exact ⟨hlow.trans hy.ge, hy.le.trans hhigh⟩

end

/-- A value of the signed 16-bit range is read back from its lane (R32). -/
theorem toInt_encodeLane {y : Int} (hlow : -32768 ≤ y) (hhigh : y ≤ 32767) :
    (encodeLane y).toInt = y :=
  BitVec.toInt_ofInt_eq_self (by decide) hlow (Int.lt_add_one_of_le hhigh)

/-! ### The statements -/

/-- Settles O48: the floor's two bounds, and the range by monotonicity in the sample. -/
theorem scaleRoundsToNearest : Obligations.ScaleRoundsToNearest := by
  intro x g
  obtain ⟨hle, hlt⟩ := scale_bounds x g
  exact ⟨hle, hlt, scale_range g, by decide, by decide, scale_unity x, scale_zero x⟩

/-- Settles O49: the three cases of the clamp, then each conversion. -/
theorem sampleIsConvertedAndClamped : Obligations.SampleIsConvertedAndClamped := by
  constructor
  · intro f c r hc k
    obtain ⟨hylow, hyhigh⟩ := condition_y_mem f r hc
    have hlane : (encodeLane k.y).toInt = k.y :=
      toInt_encodeLane ((toInt_range c.low).1.trans hylow) (hyhigh.trans (toInt_range c.high).2)
    exact ⟨condition_pre f c r, condition_of_pre_lt_low, condition_of_pre_mem,
      condition_of_high_lt_pre hc, hylow, hyhigh, hlane, condition_pre_range f c r⟩
  · intro r
    refine ⟨convert_s16_of_le, convert_s16_of_ge, rfl, convert_u12l_eq_u16 r,
      convert_u12r_eq_u12l r, convert_s12r_and r, fun h => ?_, fun h => ?_⟩
    · rw [convert_s12r, signed12_of_le h]
    · rw [convert_s12r, signed12_of_ge h]

end Sys2Proof.Machine

/-! PROOFS. Monitors (chapter 6): how a sample is classified from each side, how a monitor command
finds its monitor, and the two statements they settle. -/

namespace Sys2Proof.Machine

/-! ### The side and crossing table (R97) -/

section
variable {level y : Int}

theorem classify_unknown_of_le (h : Nat) (hy : level ≤ y) :
    classify .unknown level h y = (.above, none) :=
  if_pos hy

theorem classify_unknown_of_lt (h : Nat) (hy : y < level) :
    classify .unknown level h y = (.below, none) :=
  if_neg hy.not_ge

theorem classify_below_of_le (h : Nat) (hy : level ≤ y) :
    classify .below level h y = (.above, some .rising) :=
  if_pos hy

theorem classify_below_of_lt (h : Nat) (hy : y < level) :
    classify .below level h y = (.below, none) :=
  if_neg hy.not_ge

theorem classify_above_of_lt {h : Nat} (hy : y < level - h) :
    classify .above level h y = (.below, some .falling) :=
  if_pos hy

theorem classify_above_of_le {h : Nat} (hy : level - h ≤ y) :
    classify .above level h y = (.above, none) :=
  if_neg hy.not_gt

end

/-! ### How a monitor command finds its monitor (section 6.4) -/

theorem State.withMonitor_of_eq {b : Byte} {m : Fin 16} (h : b.toNat = m.val) (s : State) (c : Ctx)
    (go : Fin 16 → State) : s.withMonitor b c go = go m := by
  rw [withMonitor, decodeIndex_of_eq h]

theorem State.withMonitor_of_ge {b : Byte} (h : 16 ≤ b.toNat) (s : State) (c : Ctx)
    (go : Fin 16 → State) : s.withMonitor b c go = s.refuse c .badValue := by
  rw [withMonitor, decodeIndex_of_ge h]

/-- A monitor written and answered OK, in the slot just reserved (R101 to R103). -/
theorem State.setMonitor_reply_of_held (s : State) (k m : Fin 16) (unit trn : Byte) (x : Monitor) :
    ((s.seeHigh.setSlot k (.held trn unit)).setMonitor m x).reply ⟨unit, trn, k⟩ .ok [] =
      replied { s with monitors := s.monitors.set m x } k unit trn .ok [] :=
  reply_of_updated (x := .held trn unit) rfl rfl

/-- MON_RELEASE, once the link has taken it, is the unit's work in the slot just reserved. -/
theorem exec_monRelease_of_takes {s : State} {trn : Byte} {k : Fin 16} (hl : LinkTakes s trn k)
    (monitor : Byte) :
    exec (.monRelease trn monitor) s =
      .next (takeMonRelease monitor ⟨monitorUnit, trn, k⟩
        (s.seeHigh.setSlot k (.held trn monitorUnit))) :=
  congrArg Host.Outcome.next (State.command_of_takes hl monitorUnit (takeMonRelease monitor))

/-! ### The statements -/

/-- Settles O29: the table's rows, one for each side and range of the value; R98's table of watched
edges is computed. -/
theorem classifyFollowsTable : Obligations.ClassifyFollowsTable := by
  intro level y h
  refine ⟨fun hy => ⟨classify_unknown_of_le h hy, classify_below_of_le h hy⟩,
    fun hy => ⟨classify_unknown_of_lt h hy, classify_below_of_lt h hy⟩,
    classify_above_of_lt, classify_above_of_le, ?_⟩
  decide

/-- Settles O33: the taken command's index decides between the refusal and the write, and each is one
reply in the slot just reserved. -/
theorem monReleaseUnbinds : Obligations.MonReleaseUnbinds := by
  intro s trn k monitor hl
  rw [exec_monRelease_of_takes hl, takeMonRelease]
  constructor
  · intro hge
    rw [State.withMonitor_of_ge hge, State.refuse_of_held, monitorUnit]
  · intro m hm
    rw [State.withMonitor_of_eq hm, State.setMonitor_reply_of_held, monitorUnit, Monitor.unbound]

end Sys2Proof.Machine

/-! PROOFS. The SWEEP command (section 7.2): the checks of R12 and R113 as propositions, the context of
R114, the reply or registration in each column of R12's table, and the statement they settle. -/

namespace Sys2Proof.Machine

/-! ### The checks (R12, R113) -/

/-- A window that is not ENABLED takes no SWEEP. -/
theorem stateCheck_sweep_of_not_enabled {x : Window} (h : x.state ≠ .enabled) :
    stateCheck .sweep x.condition = some .wrongState := by
  cases hs : x.state with
  | disabled => rw [condition_of_disabled hs]; rfl
  | enabled => exact absurd hs h
  | draining => rw [condition_of_draining hs]; rfl

/-- An ENABLED window in a long operation is busy to a SWEEP. -/
theorem stateCheck_sweep_of_busy {x : Window} (h : x.state = .enabled) (ha : x.activity ≠ .idle) :
    stateCheck .sweep x.condition = some .busy := by
  rw [condition_of_busy h ha]
  rfl

/-- The search for a sweep in another window (R113 check 3, R115). -/
theorem State.otherSweeping_iff (s : State) (w : Fin 16) :
    s.otherSweeping w = true ↔ ∃ v : Fin 16, v ≠ w ∧ s.windows[v].activity = .sweeping := by
  simp [otherSweeping]

/-- The pages that a SWEEP names lie in a window of so many pages, a count of 0 naming every page from
the first on (R113). -/
abbrev PagesInRange (pages : Nat) (start count : Half) : Prop :=
  start.toNat < pages ∧ (count = 0 ∨ start.toNat + count.toNat ≤ pages)

/-- The unit's page test refuses exactly the pages out of range. -/
theorem pageTest_iff (pages : Nat) (start count : Half) :
    (pages ≤ start.toNat || (count ≠ 0 && pages < start.toNat + count.toNat)) = true ↔
      ¬PagesInRange pages start count := by
  simp only [PagesInRange, Bool.or_eq_true, Bool.and_eq_true, decide_eq_true_eq, not_and_or, not_or,
    not_lt, not_le]

/-! ### The context (R114) -/

/-- The context that a SWEEP fills, a count of 0 being the field's value 0. -/
theorem sweepContext_eq (w : Fin 16) (d : WindowDef) (start count : Half) :
    sweepContext w d start.toNat count.toNat =
      let stop := if count = 0 then d.base.toNat + d.pages * 4096
        else d.base.toNat + (start.toNat + count.toNat) * 4096
      ⟨w, d.base.toNat + start.toNat * 4096, stop,
        start = 0 ∧ stop = d.base.toNat + d.pages * 4096, d.base.toNat + start.toNat * 4096, 0,
        .readPending, none, none, false, false⟩ := by
  have toNat_zero_iff (v : Half) : v.toNat = 0 ↔ v = 0 := BitVec.toNat_inj (y := 0#16)
  simp only [sweepContext, toNat_zero_iff, Bool.decide_and]

/-! ### SWEEP at its unit (R12, R113, R114) -/

section
variable {s : State} {w : Fin 16} {trn : Byte} {k : Fin 16}

/-- SWEEP, once the link has taken it, is the unit's work in the slot just reserved. -/
theorem exec_sweep_of_takes (hl : LinkTakes s trn k) (w : Fin 16) (start count : Half) :
    exec (.sweep w trn start count) s =
      .next (takeSweep w start count ⟨windowUnit w, trn, k⟩
        (s.seeHigh.setSlot k (.held trn (windowUnit w)))) :=
  congrArg Host.Outcome.next (State.command_of_takes hl (windowUnit w) (takeSweep w start count))

/-- R12's refusal is the reply. -/
theorem exec_sweep_of_refused (hl : LinkTakes s trn k) {st : Status}
    (h : stateCheck .sweep s.windows[w].condition = some st) (start count : Half) :
    exec (.sweep w trn start count) s = .next (replied s k (windowUnit w) trn st []) := by
  rw [exec_sweep_of_takes hl, takeSweep, State.checked_of_some rfl (by exact h), State.refuse_of_held]

/-- In an ENABLED and IDLE window R113's further checks follow in their order: each refusal is the
reply, and a SWEEP that passes is registered. -/
theorem exec_sweep_of_idle (hl : LinkTakes s trn k) (hs : s.windows[w].state = .enabled)
    (ha : s.windows[w].activity = .idle) (start count : Half) :
    exec (.sweep w trn start count) s = .next (
      if s.windows[w].defn.mode ≠ .storeBoth then replied s k (windowUnit w) trn .wrongState []
      else if ∃ v : Fin 16, v ≠ w ∧ s.windows[v].activity = .sweeping then
        replied s k (windowUnit w) trn .busy []
      else if ¬PagesInRange s.windows[w].defn.pages start count then
        replied s k (windowUnit w) trn .badValue []
      else registered { s with
        windows := s.windows.set w
          { s.windows[w] with activity := .sweeping, deferred := some ⟨trn, .sweep⟩ }
        sweep := some (sweepContext w s.windows[w].defn start.toNat count.toNat) }
          k (windowUnit w) trn 0x06) := by
  rw [exec_sweep_of_takes hl, takeSweep,
    State.checked_of_none (x := .idle) (by exact condition_of_idle hs ha) rfl]
  simp only [State.otherSweeping_iff, pageTest_iff, State.refuse_of_held]
  rfl

end

/-! ### The statement -/

/-- Settles O18: R12's column refuses, or R113's further checks are taken in their order, and each case
of the statement picks its branch. -/
theorem sweepFillsContext : Obligations.SweepFillsContext := by
  intro s w trn k start count hl
  refine ⟨fun hs => exec_sweep_of_refused hl (stateCheck_sweep_of_not_enabled hs) start count,
    fun hs ha => exec_sweep_of_refused hl (stateCheck_sweep_of_busy hs ha) start count,
    fun hs ha => ?_⟩
  rw [exec_sweep_of_idle hl hs ha, sweepContext_eq]
  refine ⟨fun hmode => ?_, fun hmode hother => ?_, fun hmode hother hpages => ?_,
    fun hmode hother hpages => ?_⟩
  · rw [if_pos hmode]
  · rw [if_neg (not_not.2 hmode), if_pos hother]
  · rw [if_neg (not_not.2 hmode), if_neg hother, if_pos hpages]
  · rw [if_neg (not_not.2 hmode), if_neg hother, if_neg (not_not.2 hpages)]

end Sys2Proof.Machine

/-! PROOFS. The fault list and the notice queue (R149, R168): what an offered fault does by its likeness
to the newest record and the room in the list, what an offered notice does by the room in its queue, and
the statement they settle. -/

namespace Sys2Proof.Machine.State

variable {s : State} {f : FaultInfo}

/-! ### Conditions as propositions (R149, R168) -/

/-- A fault coalesces into a record of its kind, origin and window; address and tag play no part. -/
theorem coalesces_iff (r : FaultRecord) (f : FaultInfo) :
    coalesces r f = true ↔
      r.info.kind = f.kind ∧ r.info.origin = f.origin ∧ r.info.window = f.window := by
  simp only [coalesces, Bool.and_eq_true, decide_eq_true_eq, and_assoc]

theorem loadDone_iff (s : State) : s.loadDone = true ↔ s.phase = .loaded ∨ s.phase = .serving := by
  simp only [loadDone, Bool.or_eq_true, decide_eq_true_eq]

/-! ### A fault offered (R149) -/

/-- R149 case 1: the newest record takes the fault, however long the list is. -/
theorem offerFault_of_coalesces {init : List FaultRecord} {r : FaultRecord}
    (hs : s.faults = init ++ [r]) (hr : coalesces r f = true) :
    s.offerFault f = { s with faults := init ++ [{ r with repeats := satInc 255 r.repeats }] } := by
  obtain ⟨init', r', hs', _, h⟩ | ⟨hnew, _⟩ | ⟨hnew, _⟩ := s.offerFault_cases f
  · obtain ⟨rfl, hlast⟩ := List.append_inj' (hs.symm.trans hs') rfl
    obtain rfl := List.singleton_inj.1 hlast
    exact h
  · exact absurd hr (Bool.eq_false_iff.1 (hnew init r hs))
  · exact absurd hr (Bool.eq_false_iff.1 (hnew init r hs))

section
variable (hnew : ∀ init r, s.faults = init ++ [r] → ¬coalesces r f = true)
include hnew

/-- R149 case 2: a fault unlike the newest record is appended while the list has room. -/
theorem offerFault_of_room (hlen : s.faults.length < 8) : s.offerFault f = s.appendFault f := by
  obtain ⟨init, r, hs, hr, _⟩ | ⟨_, _, h⟩ | ⟨_, hfull, _⟩ := s.offerFault_cases f
  · exact absurd hr (hnew init r hs)
  · exact h
  · exact absurd hlen (Nat.not_lt.2 hfull)

/-- R149 case 3: a fault unlike the newest record is discarded by a full list. -/
theorem offerFault_of_full (hlen : 8 ≤ s.faults.length) :
    s.offerFault f = { s with overflow := true } := by
  obtain ⟨init, r, hs, hr, _⟩ | ⟨_, hroom, _⟩ | ⟨_, _, h⟩ := s.offerFault_cases f
  · exact absurd hr (hnew init r hs)
  · exact absurd hroom (Nat.not_lt.2 hlen)
  · exact h

end

/-! ### A notice offered (R168) -/

theorem offerNotice_of_takes (h : s.loadDone = true ∧ s.notices.length < 8) (b : NoticeBody) :
    s.offerNotice b = { s with notices := s.notices ++ [⟨s.lost, b⟩], lost := 0 } := by
  obtain ⟨_, _, heq⟩ | ⟨hno, _⟩ := s.offerNotice_cases b
  · exact heq
  · exact absurd h hno

theorem offerNotice_of_not_takes (h : ¬(s.loadDone = true ∧ s.notices.length < 8)) (b : NoticeBody) :
    s.offerNotice b = { s with lost := satInc 255 s.lost } := by
  obtain ⟨hdone, hroom, _⟩ | ⟨_, heq⟩ := s.offerNotice_cases b
  · exact absurd ⟨hdone, hroom⟩ h
  · exact heq

end Sys2Proof.Machine.State

namespace Sys2Proof.Machine

/-! ### The statement -/

/-- Settles O36: the rules above, with their conditions spelled out by `coalesces_iff` and
`loadDone_iff`. -/
theorem offeredFaultCoalescesAppendsOrDrops : Obligations.OfferedFaultCoalescesAppendsOrDrops := by
  intro s f
  simp only [← State.coalesces_iff, ← State.loadDone_iff, ← satInc_eq]
  exact ⟨fun _ _ hs hr => State.offerFault_of_coalesces hs hr,
    fun hnew => ⟨State.offerFault_of_room hnew, State.offerFault_of_full hnew⟩,
    fun b => ⟨fun h => State.offerNotice_of_takes h b, fun h => State.offerNotice_of_not_takes h b⟩⟩

end Sys2Proof.Machine

/-! PROOFS. The CORE unit's commands (section 10.11): each answer is one reply in the slot just reserved,
after what the command changes, and the two statements they settle. -/

namespace Sys2Proof.Machine

/-! ### The identity's bytes (R174) -/

/-- The part code 0x4160, least significant byte first. -/
theorem le16_partCode : le16 Config.partCode = [0x60, 0x41] := by decide

theorem linkRateCode_eq (r : LinkRate) : linkRateCode r = if r = .baud115200 then 0 else 1 := by
  cases r with
  | baud115200 => rfl
  | baud1000000 => rfl

/-! ### The unit's work in the slot just reserved (R174, R176, R177) -/

section
variable (s : State) (k : Fin 16) (trn : Byte)

/-- GET_IDENTITY changes nothing, and the slot just reserved does not touch the link rate. -/
theorem takeGetIdentity_of_held :
    takeGetIdentity ⟨coreUnit, trn, k⟩ (s.seeHigh.setSlot k (.held trn coreUnit)) =
      replied s k coreUnit trn .ok
        (le16 Config.partCode ++ [Config.revision, linkRateCode s.linkRate]) := by
  rw [takeGetIdentity, State.reply_of_held, State.setSlot_linkRate, State.seeHigh_linkRate]

/-- The reply carries the limit from before the change. -/
theorem takeSetLimits_of_held (limit : Half) :
    takeSetLimits limit ⟨coreUnit, trn, k⟩ (s.seeHigh.setSlot k (.held trn coreUnit)) =
      replied { s with limit := limit } k coreUnit trn .ok (le16 s.limit) :=
  State.reply_of_updated (x := .held trn coreUnit) rfl rfl

/-- The reply carries the counters from before the change. -/
theorem takeGetLinkCounters_of_held (flags : Byte) :
    takeGetLinkCounters flags ⟨coreUnit, trn, k⟩ (s.seeHigh.setSlot k (.held trn coreUnit)) =
      replied { s with counters := if flags.getLsbD 0 then ⟨0, 0, 0, 0, 0⟩ else s.counters }
        k coreUnit trn .ok (countersPayload s.counters) :=
  State.reply_of_updated (x := .held trn coreUnit) rfl rfl

end

/-! ### The commands, once the link has taken them -/

section
variable {s : State} {k : Fin 16} {trn : Byte}

theorem exec_getIdentity_of_takes (hl : LinkTakes s trn k) :
    exec (.getIdentity trn) s = .next (replied s k coreUnit trn .ok
      (le16 Config.partCode ++ [Config.revision, linkRateCode s.linkRate])) :=
  congrArg Host.Outcome.next
    ((State.command_of_takes hl coreUnit takeGetIdentity).trans (takeGetIdentity_of_held s k trn))

theorem exec_setLimits_of_takes (hl : LinkTakes s trn k) (limit : Half) :
    exec (.setLimits trn limit) s =
      .next (replied { s with limit := limit } k coreUnit trn .ok (le16 s.limit)) :=
  congrArg Host.Outcome.next ((State.command_of_takes hl coreUnit (takeSetLimits limit)).trans
    (takeSetLimits_of_held s k trn limit))

theorem exec_getLinkCounters_of_takes (hl : LinkTakes s trn k) (flags : Byte) :
    exec (.getLinkCounters trn flags) s = .next (replied
      { s with counters := if flags.getLsbD 0 then ⟨0, 0, 0, 0, 0⟩ else s.counters }
      k coreUnit trn .ok (countersPayload s.counters)) :=
  congrArg Host.Outcome.next ((State.command_of_takes hl coreUnit (takeGetLinkCounters flags)).trans
    (takeGetLinkCounters_of_held s k trn flags))

end

/-! ### The statements -/

/-- Settles O42: the reply at the unit, with the identity's fields as their bytes. -/
theorem getIdentityReports : Obligations.GetIdentityReports := by
  intro s trn k hl
  rw [exec_getIdentity_of_takes hl, le16_partCode, linkRateCode_eq, coreUnit, Config.revision]
  rfl

/-- Settles O44: each command's reply at the unit; both are taken with the fields of the state before
them. -/
theorem limitsAndCounters : Obligations.LimitsAndCounters := by
  intro s trn k limit flags hl
  constructor
  · rw [exec_setLimits_of_takes hl, coreUnit]
  · rw [exec_getLinkCounters_of_takes hl, coreUnit, countersPayload]

end Sys2Proof.Machine

/-! PROOFS. The link commands at their units: for each, what is left of a command whose slot has just been
reserved, as one equation in `replied` and `registered` (sections 1.5, 6.4, 6.5, 7.2, 8.2, 9.2, 9.4, 10.11,
11.3 to 11.5). -/

namespace Sys2Proof.Machine

/-! ### R12's table, row by row -/

theorem stateCheck_define (x : Window) : stateCheck .define x.condition =
    if x.state = .disabled then none else some .wrongState := by
  unfold Window.condition
  cases x.state <;> cases x.activity <;> rfl

theorem stateCheck_enable (x : Window) : stateCheck .enable x.condition =
    if x.state = .disabled then none else some .wrongState := by
  unfold Window.condition
  cases x.state <;> cases x.activity <;> rfl

theorem stateCheck_setChannel (x : Window) : stateCheck .setChannel x.condition =
    if x.state = .disabled ∨ x.state = .enabled ∧ x.activity = .idle then none else some .busy := by
  unfold Window.condition
  cases x.state <;> cases x.activity <;> rfl

theorem stateCheck_abort (x : Window) : stateCheck .abort x.condition =
    if x.state = .enabled ∧ x.activity ≠ .idle then none else some .wrongState := by
  unfold Window.condition
  cases x.state <;> cases x.activity <;> rfl

theorem stateCheck_disable (x : Window) : stateCheck .disable x.condition =
    if x.state = .enabled then if x.activity = .idle then none else some .busy
    else some .wrongState := by
  unfold Window.condition
  cases x.state <;> cases x.activity <;> rfl

theorem stateCheck_zeroCapture (x : Window) : stateCheck .zeroCapture x.condition =
    if x.state = .enabled then if x.activity = .idle then none else some .busy
    else some .wrongState := by
  unfold Window.condition
  cases x.state <;> cases x.activity <;> rfl

theorem stateCheck_sweep (x : Window) : stateCheck .sweep x.condition =
    if x.state = .enabled then if x.activity = .idle then none else some .busy
    else some .wrongState := by
  unfold Window.condition
  cases x.state <;> cases x.activity <;> rfl

namespace State

section
variable (s : State) (k : Fin 16) (unit trn : Byte)

/-- R12's check in the slot just reserved: the refusal is the reply. -/
theorem checked_of_held (w : Fin 16) (cmd : WinCommand) (go : State) :
    (s.seeHigh.setSlot k (.held trn unit)).checked w cmd ⟨unit, trn, k⟩ go =
      ((stateCheck cmd s.windows[w].condition).map
        fun st => replied s k unit trn st []).getD go := by
  cases h : stateCheck cmd s.windows[w].condition with
  | none => rw [checked_of_none rfl (by exact h)]; rfl
  | some st => rw [checked_of_some rfl (by exact h), refuse_of_held]; rfl

/-! ### The window commands (section 1.5) -/

theorem takeDefine_of_held (w : Fin 16) (base : Word) (pages : Half)
    (mode format count flags : Byte) (shadow : Word) :
    takeDefine w base pages mode format count flags shadow ⟨unit, trn, k⟩
        (s.seeHigh.setSlot k (.held trn unit)) =
      if s.windows[w].state = .disabled then
        (((definitionOf base pages mode format count flags shadow).filter
            WindowDef.acceptable).map fun d =>
          replied { s with windows := s.windows.set w { s.windows[w] with
            defn := d, chans := resizeChans s.windows[w].chans d.count } } k unit trn .ok []).getD
          (replied s k unit trn .badValue [])
      else replied s k unit trn .wrongState [] := by
  rw [takeDefine, checked_of_held, stateCheck_define]
  split
  · cases definitionOf base pages mode format count flags shadow with
    | none => exact refuse_of_held s k unit trn .badValue
    | some d =>
      cases hd : d.acceptable with
      | true =>
        simp only [hd, Option.filter, Option.map, Option.getD, if_true]
        exact reply_of_updated (s := s) (x := .held trn unit) rfl rfl
      | false =>
        simp only [hd, Option.filter, Option.map, Option.getD, Bool.false_eq_true, if_false]
        exact refuse_of_held s k unit trn .badValue
  · rfl

theorem takeSetChannel_of_held (w : Fin 16) (channel : Byte) (r : ChanRec) :
    takeSetChannel w channel r ⟨unit, trn, k⟩ (s.seeHigh.setSlot k (.held trn unit)) =
      if s.windows[w].state = .disabled ∨ s.windows[w].state = .enabled ∧ s.windows[w].activity = .idle
      then
        if channel.toNat < s.windows[w].defn.count ∧ r.low.toInt ≤ r.high.toInt then
          if s.windows[w].state = .enabled ∧ s.windows[w].defn.mode = .storeBoth then
            replied { s with
              windows := s.windows.set w { s.windows[w] with
                chans := s.windows[w].chans.set channel.toNat r, stale := true }
              sweep := s.sweep.map fun c => if c.window = w then { c with restaled := true } else c }
              k unit trn .ok []
          else replied { s with windows := s.windows.set w { s.windows[w] with
            chans := s.windows[w].chans.set channel.toNat r } } k unit trn .ok []
        else replied s k unit trn .badValue []
      else replied s k unit trn .busy [] := by
  rw [takeSetChannel, checked_of_held, stateCheck_setChannel]
  simp only [Bool.and_eq_true, decide_eq_true_eq]
  simp only [setSlot_windows, seeHigh_windows]
  split
  · simp only [Option.map_none, Option.getD_none]
    refine if_congr Iff.rfl ?_ (refuse_of_held s k unit trn .badValue)
    by_cases hb : s.windows[w].state = .enabled ∧ s.windows[w].defn.mode = .storeBoth
    · rw [if_pos hb]
      refine (congrArg (reply · ⟨unit, trn, k⟩ .ok []) (if_pos hb)).trans
        (reply_of_updated (s := s) (x := .held trn unit) ?_ rfl)
      simp only [setStale_eq, setWindow, get_set_self, set_set_self, setSlot, seeHigh]
    · rw [if_neg hb]
      exact (congrArg (reply · ⟨unit, trn, k⟩ .ok []) (if_neg hb)).trans
        (reply_of_updated (s := s) (x := .held trn unit) rfl rfl)
  · rfl

theorem takeEnable_of_held (w : Fin 16) :
    takeEnable w ⟨unit, trn, k⟩ (s.seeHigh.setSlot k (.held trn unit)) =
      if s.windows[w].state = .disabled then
        if s.conflicts w = true then replied s k unit trn .overlap []
        else if s.unsettled s.windows[w].defn = true then replied s k unit trn .busy []
        else replied { s with
          windows := s.windows.set w { s.windows[w] with state := .enabled, stale := false }
          stats := s.stats.set w (Vector.replicate 4 .empty)
          monitors := s.monitors.map fun m =>
            if m.bind.any (·.window = w) then { m with side := .unknown } else m } k unit trn .ok []
      else replied s k unit trn .wrongState [] := by
  rw [takeEnable, checked_of_held, stateCheck_enable]
  split
  · simp only [Option.map_none, Option.getD_none]
    exact if_congr Iff.rfl (refuse_of_held s k unit trn .overlap)
      (if_congr Iff.rfl (refuse_of_held s k unit trn .busy)
        (reply_of_updated (s := s) (x := .held trn unit) rfl rfl))
  · rfl

theorem takeDisable_of_held (w : Fin 16) :
    takeDisable w ⟨unit, trn, k⟩ (s.seeHigh.setSlot k (.held trn unit)) =
      if s.windows[w].state = .enabled then
        if s.windows[w].activity = .idle then
          if s.windows[w].inflight = 0 then
            replied { s with
              windows := s.windows.set w { s.windows[w] with state := .disabled }
              monitors := s.monitors.map fun m =>
                if m.bind.any (·.window = w) then { m with side := .unknown } else m } k unit trn .ok []
          else registered { s with
              windows := s.windows.set w
                { s.windows[w] with state := .draining, deferred := some ⟨trn, .disable⟩ }
              monitors := s.monitors.map fun m =>
                if m.bind.any (·.window = w) then { m with side := .unknown } else m } k unit trn 0x04
        else replied s k unit trn .busy []
      else replied s k unit trn .wrongState [] := by
  rw [takeDisable, checked_of_held, stateCheck_disable]
  split
  · split
    · simp only [Option.map_none, Option.getD_none]
      exact if_congr Iff.rfl (reply_of_updated (s := s) (x := .held trn unit) rfl rfl) rfl
    · rfl
  · rfl

theorem takeQuery_of_held (w : Fin 16) (channel : Byte) :
    takeQuery w channel ⟨unit, trn, k⟩ (s.seeHigh.setSlot k (.held trn unit)) =
      if channel.toNat < 4 then replied s k unit trn .ok (queryPayload s w channel)
      else replied s k unit trn .badValue [] := by
  rw [takeQuery, checked_of_held]
  exact if_congr Iff.rfl (reply_of_held s k unit trn .ok _) (refuse_of_held s k unit trn .badValue)

theorem takeSweep_of_held (w : Fin 16) (start count : Half) :
    takeSweep w start count ⟨unit, trn, k⟩ (s.seeHigh.setSlot k (.held trn unit)) =
      if s.windows[w].state = .enabled then
        if s.windows[w].activity = .idle then
          if s.windows[w].defn.mode ≠ .storeBoth then replied s k unit trn .wrongState []
          else if ∃ v : Fin 16, v ≠ w ∧ s.windows[v].activity = .sweeping then
            replied s k unit trn .busy []
          else if ¬PagesInRange s.windows[w].defn.pages start count then
            replied s k unit trn .badValue []
          else registered { s with
            windows := s.windows.set w
              { s.windows[w] with activity := .sweeping, deferred := some ⟨trn, .sweep⟩ }
            sweep := some (sweepContext w s.windows[w].defn start.toNat count.toNat) } k unit trn 0x06
        else replied s k unit trn .busy []
      else replied s k unit trn .wrongState [] := by
  rw [takeSweep, checked_of_held, stateCheck_sweep]
  split
  · split
    · simp only [otherSweeping_iff, pageTest_iff, refuse_of_held, Option.map_none,
        Option.getD_none]
      rfl
    · rfl
  · rfl

theorem takeZeroCapture_of_held (w : Fin 16) (channel n : Byte) (limit : Half) :
    takeZeroCapture w channel n limit ⟨unit, trn, k⟩ (s.seeHigh.setSlot k (.held trn unit)) =
      if s.windows[w].state = .enabled then
        if s.windows[w].activity = .idle then
          if channel.toNat < s.windows[w].defn.count ∧ 4 ≤ n.toNat ∧ n.toNat ≤ 12 ∧ limit ≠ 0 then
            registered { s with
              windows := s.windows.set w
                { s.windows[w] with activity := .zeroing, deferred := some ⟨trn, .zero⟩ }
              captures := s.captures.set w
                (some ⟨channel.toNat, n.toNat, limit.toNat, 0, 0, s.usBase / 1000 + limit.toNat⟩) }
              k unit trn 0x07
          else replied s k unit trn .badValue []
        else replied s k unit trn .busy []
      else replied s k unit trn .wrongState [] := by
  rw [takeZeroCapture, checked_of_held, stateCheck_zeroCapture]
  split
  · split
    · simp only [Option.map_none, Option.getD_none]
      have htest : (s.windows[w].defn.count ≤ channel.toNat || n.toNat < 4 || 12 < n.toNat
          || limit = 0) = true ↔
          ¬(channel.toNat < s.windows[w].defn.count ∧ 4 ≤ n.toNat ∧ n.toNat ≤ 12 ∧ limit ≠ 0) := by
        simp only [Bool.or_eq_true, decide_eq_true_eq, not_and_or, not_lt, not_le, ne_eq, not_not,
          or_assoc]
      exact (if_congr htest (refuse_of_held s k unit trn .badValue) rfl).trans (ite_not _ _ _)
    · rfl
  · rfl

/-- The OK of an ABORT is queued before what it stops (R124, R140). -/
theorem takeAbort_of_held (w : Fin 16) :
    takeAbort w ⟨unit, trn, k⟩ (s.seeHigh.setSlot k (.held trn unit)) =
      if s.windows[w].state = .enabled ∧ s.windows[w].activity ≠ .idle then
        if s.windows[w].activity = .sweeping then (replied s k unit trn .ok []).stopSweep w
        else (replied s k unit trn .ok []).stopCapture w
      else replied s k unit trn .wrongState [] := by
  rw [takeAbort, checked_of_held, stateCheck_abort]
  simp only [reply_of_held]
  split <;> rfl

theorem takeReadStats_of_held (w : Fin 16) (slot flags : Byte) :
    takeReadStats w slot flags ⟨unit, trn, k⟩ (s.seeHigh.setSlot k (.held trn unit)) =
      if h : slot.toNat < 4 then
        replied (if flags.getLsbD 0 then s.setStats w ⟨slot.toNat, h⟩ .empty else s) k unit trn .ok
          (statsPayload slot (s.stats[w])[slot.toNat])
      else replied s k unit trn .badValue [] := by
  rw [takeReadStats, checked_of_held]
  show (if h : _ then _ else _) = _
  split
  · rename_i h
    cases hf : flags.getLsbD 0 with
    | true => exact reply_of_updated (s := s) (x := .held trn unit) rfl rfl
    | false => exact reply_of_held s k unit trn .ok _
  · exact refuse_of_held s k unit trn .badValue

/-! ### The MONITOR unit (section 6.4) -/

theorem takeMonSet_of_held (monitor window channel : Byte) (level hysteresis : Half)
    (direction mode : Byte) :
    takeMonSet monitor window channel level hysteresis direction mode ⟨unit, trn, k⟩
        (s.seeHigh.setSlot k (.held trn unit)) =
      ((decodeIndex monitor).bind fun m : Fin 16 =>
        (bindingOf s window channel level hysteresis direction mode).map fun b =>
          replied { s with monitors := s.monitors.set m ⟨.armed, some b, .unknown, 0, none⟩ }
            k unit trn .ok []).getD (replied s k unit trn .badValue []) := by
  rw [takeMonSet, withMonitor]
  cases decodeIndex monitor with
  | none => exact refuse_of_held s k unit trn .badValue
  | some m =>
    have hb : bindingOf (s.seeHigh.setSlot k (.held trn unit)) window channel level hysteresis direction
        mode = bindingOf s window channel level hysteresis direction mode := rfl
    simp only [hb]
    cases bindingOf s window channel level hysteresis direction mode with
    | none => exact refuse_of_held s k unit trn .badValue
    | some b => exact setMonitor_reply_of_held s k m unit trn _

theorem takeMonArm_of_held (monitor : Byte) :
    takeMonArm monitor ⟨unit, trn, k⟩ (s.seeHigh.setSlot k (.held trn unit)) =
      ((decodeIndex monitor).map fun m : Fin 16 =>
        if s.monitors[m].state = .unbound then replied s k unit trn .wrongState []
        else replied
          { s with monitors := s.monitors.set m { s.monitors[m] with state := .armed, side := .unknown } }
          k unit trn .ok []).getD
        (replied s k unit trn .badValue []) := by
  rw [takeMonArm, withMonitor]
  cases decodeIndex monitor with
  | none => exact refuse_of_held s k unit trn .badValue
  | some m =>
    exact if_congr Iff.rfl (refuse_of_held s k unit trn .wrongState)
      (setMonitor_reply_of_held s k m unit trn _)

theorem takeMonRelease_of_held (monitor : Byte) :
    takeMonRelease monitor ⟨unit, trn, k⟩ (s.seeHigh.setSlot k (.held trn unit)) =
      ((decodeIndex monitor).map fun m : Fin 16 =>
        replied { s with monitors := s.monitors.set m .unbound } k unit trn .ok []).getD
        (replied s k unit trn .badValue []) := by
  rw [takeMonRelease, withMonitor]
  cases decodeIndex monitor with
  | none => exact refuse_of_held s k unit trn .badValue
  | some m => exact setMonitor_reply_of_held s k m unit trn _

theorem takeMonQuery_of_held (monitor : Byte) :
    takeMonQuery monitor ⟨unit, trn, k⟩ (s.seeHigh.setSlot k (.held trn unit)) =
      ((decodeIndex monitor).map fun m : Fin 16 =>
        replied s k unit trn .ok (monitorPayload m s.monitors[m])).getD
        (replied s k unit trn .badValue []) := by
  rw [takeMonQuery, withMonitor]
  cases decodeIndex monitor with
  | none => exact refuse_of_held s k unit trn .badValue
  | some m => exact reply_of_held s k unit trn .ok _

/-! ### The TIME unit (sections 9.2, 9.4) -/

theorem takeTbSet_of_held (source edge : Byte) (preset : Word) :
    takeTbSet source edge preset ⟨unit, trn, k⟩ (s.seeHigh.setSlot k (.held trn unit)) =
      ((decodeSource source).bind fun src => (decodeEdge edge).map fun e =>
        replied { s with tbValue := preset, tbSource := src, tbEdge := e } k unit trn .ok []).getD
        (replied s k unit trn .badValue []) := by
  unfold takeTbSet
  cases decodeSource source with
  | none => exact refuse_of_held s k unit trn .badValue
  | some src =>
    cases decodeEdge edge with
    | none => exact refuse_of_held s k unit trn .badValue
    | some e => exact reply_of_updated (s := s) (x := .held trn unit) rfl rfl

theorem takeTbRead_of_held :
    takeTbRead ⟨unit, trn, k⟩ (s.seeHigh.setSlot k (.held trn unit)) =
      replied s k unit trn .ok (le32 s.tbValue ++ [s.tbSource.code, edgeCode s.tbEdge]) :=
  reply_of_held s k unit trn .ok _

theorem takeFaultPeek_of_held :
    takeFaultPeek ⟨unit, trn, k⟩ (s.seeHigh.setSlot k (.held trn unit)) =
      replied s k unit trn .ok (faultPayload s.faults.length s.overflow s.faults.head?) :=
  reply_of_held s k unit trn .ok _

theorem takeFaultPop_of_held_of_nil (h : s.faults = []) :
    takeFaultPop ⟨unit, trn, k⟩ (s.seeHigh.setSlot k (.held trn unit)) =
      replied s k unit trn .ok (faultPayload 0 s.overflow none) := by
  simp only [takeFaultPop, setSlot_faults, seeHigh_faults, h]
  exact reply_of_held s k unit trn .ok _

theorem takeFaultPop_of_held_of_cons {r : FaultRecord} {rest : List FaultRecord}
    (h : s.faults = r :: rest) :
    takeFaultPop ⟨unit, trn, k⟩ (s.seeHigh.setSlot k (.held trn unit)) =
      replied { s with faults := rest, alert := if rest.isEmpty then false else s.alert } k unit trn .ok
        (faultPayload rest.length s.overflow (some r)) := by
  simp only [takeFaultPop, setSlot_faults, seeHigh_faults, h]
  exact reply_of_updated (s := s) (x := .held trn unit) rfl rfl

theorem takeFaultClear_of_held :
    takeFaultClear ⟨unit, trn, k⟩ (s.seeHigh.setSlot k (.held trn unit)) =
      replied { s with
        faults := [], overflow := false, alert := if s.faults.isEmpty then s.alert else false }
        k unit trn .ok [u8 s.faults.length, flagBits [s.overflow]] :=
  reply_of_updated (s := s) (x := .held trn unit) rfl rfl

/-! ### The BOOT unit (sections 11.3 to 11.5) -/

/-- One of the two copies is set; nothing else differs. -/
theorem setCopy_eq (id : CopyId) (c : BootCopy) :
    s.setCopy id c = { s with
      copyA := if id = .a then c else s.copyA, copyB := if id = .b then c else s.copyB } := by
  cases id <;> rfl

theorem takeBootCommit_of_held :
    takeBootCommit ⟨unit, trn, k⟩ (s.seeHigh.setSlot k (.held trn unit)) =
      if s.boot.commit.isSome then replied s k unit trn .busy []
      else if s.boot.activeGeneration = some 0xFFFFFFFF then
        replied s k unit trn .failed (copyPayload s.boot.active s.boot.activeGeneration)
      else registered { s.clearMarker (commitTarget s.boot.active) with
        boot := { s.boot.setGeneration (commitTarget s.boot.active) none with
          commit := some ⟨trn, commitTarget s.boot.active, s.boot.activeGeneration.getD 0 + 1,
            s.snapshot⟩ } } k unit trn 0x01 := by
  refine if_congr Iff.rfl (refuse_of_held s k unit trn .busy)
    (if_congr Iff.rfl (reply_of_held s k unit trn .failed _) ?_)
  simp only [setSlot_boot, seeHigh_boot]
  generalize commitTarget s.boot.active = id
  cases id <;> rfl

theorem takeBootQuery_of_held :
    takeBootQuery ⟨unit, trn, k⟩ (s.seeHigh.setSlot k (.held trn unit)) =
      if s.boot.commit.isSome then replied s k unit trn .busy []
      else replied s k unit trn .ok
        ([flagBits [s.boot.genA.isSome, s.boot.genB.isSome], copyCode s.boot.active]
          ++ le32 (s.boot.genA.getD 0) ++ le32 (s.boot.genB.getD 0)) :=
  if_congr Iff.rfl (refuse_of_held s k unit trn .busy) (reply_of_held s k unit trn .ok _)

/-! ### The CORE unit (section 10.11) -/

/-- GET_STATUS counts its own slot, which stands reserved. -/
theorem takeGetStatus_of_held :
    takeGetStatus ⟨unit, trn, k⟩ (s.seeHigh.setSlot k (.held trn unit)) =
      replied s k unit trn .ok (statusPayload (s.seeHigh.setSlot k (.held trn unit))) :=
  reply_of_held s k unit trn .ok _

end

end State

end Sys2Proof.Machine

/-! PROOFS. What a step is made of: a small list of changes, each with the conditions under which a step
makes it, such that every command is a run of them. The invariants are proved change by change. -/

namespace Sys2Proof.Machine

/-- The link counters keep their ranges (R161). -/
abbrev CountersSound (c : LinkCounters) : Prop :=
  c.framing ≤ 65535 ∧ c.crc ≤ 65535 ∧ c.badTrn ≤ 65535 ∧ c.overrun ≤ 65535 ∧ c.breaks ≤ 65535

/-- One of the changes that a step is made of. -/
inductive Move : State → State → Prop
  /-- Fields that no invariant speaks of. -/
  | untracked (s : State) {pending freeCount linkRate tbValue tbSource tbEdge stats monitors accCounter
      limit turn fairness overflow breakLow rxHighAt rxHigh} :
    Move s { s with
      pending := pending, freeCount := freeCount, linkRate := linkRate, tbValue := tbValue
      tbSource := tbSource, tbEdge := tbEdge, stats := stats, monitors := monitors
      accCounter := accCounter, limit := limit, turn := turn, fairness := fairness
      overflow := overflow, breakLow := breakLow, rxHighAt := rxHighAt, rxHigh := rxHigh }
  /-- R149, with its notice (R151, R168). -/
  | offerFault (s : State) (f : FaultInfo) : Move s (s.offerFault f)
  /-- R168. -/
  | offerNotice (s : State) (b : NoticeBody) : Move s (s.offerNotice b)
  /-- R153. -/
  | popFault {s : State} {r : FaultRecord} {rest : List FaultRecord} (h : s.faults = r :: rest) :
    Move s { s with faults := rest, alert := if rest.isEmpty then false else s.alert }
  /-- R154. -/
  | clearFaults (s : State) : Move s { s with
      faults := [], overflow := false, alert := if s.faults.isEmpty then s.alert else false }
  /-- R161, R177. -/
  | count (s : State) {c : LinkCounters} (h : CountersSound s.counters → CountersSound c) :
    Move s { s with counters := c }
  /-- R166, R167: a reply in a slot that was free. -/
  | reply {s : State} {k : Fin 16} (unit trn : Byte) (status : Status) (payload : List Byte)
      (hk : s.slots[k] = .free) : Move s (replied s k unit trn status payload)
  /-- R164, R166: a deferred command in a slot that was free, of a TRN that was not pending. -/
  | register {s : State} {k : Fin 16} {trn : Byte} (unit code : Byte) (hk : s.slots[k] = .free)
      (ht : s.trnPending trn = false) : Move s (registered s k unit trn code)
  /-- R164, R166. -/
  | complete (s : State) (trn : Byte) (status : Status) (payload : List Byte) :
    Move s (s.completeDeferred trn status payload)
  /-- R158, R159: a byte kept now, or HUNT. -/
  | receive (s : State) {r : Receiver} (h : r.state = .hunt ∨ r.lastAt = s.usBase) :
    Move s { s with rx := r }
  /-- R171. -/
  | lineBreak (s : State) : Move s { s with
      slots := s.slots.map Slot.afterBreak, replyQueue := [], tx := s.tx.cut, notices := [], lost := 0
      runCount := 0 }
  /-- R169. -/
  | sendReply {s : State} {k : Fin 16} {rest : List (Fin 16)} {r : Reply} {run : Nat}
      (htx : s.tx.idles = true) (hq : s.replyQueue = k :: rest) (hr : s.slots[k] = .queued r)
      (hrun : run = s.runCount ∨ run ≤ 4) :
    Move s { s with
      slots := s.slots.set k (.sending r), replyQueue := rest, runCount := run
      tx := .sending (some k) (replyPacket r) }
  /-- A slot of the reply queue that is not QUEUED; no sound state has one. -/
  | skipReply {s : State} {k : Fin 16} {rest : List (Fin 16)} (hq : s.replyQueue = k :: rest)
      (hr : s.slots[k].isQueued = false) : Move s { s with replyQueue := rest }
  /-- R169. -/
  | sendNotice {s : State} {n : Notice} {ns : List Notice} (p : List Byte) (htx : s.tx.idles = true)
      (hn : s.notices = n :: ns) :
    Move s { s with notices := ns, runCount := 0, tx := .sending none p }
  /-- R169: the end of a reply. -/
  | endReply {s : State} {k : Fin 16} {p : List Byte} (h : s.tx = .sending (some k) p) :
    Move s { s with slots := s.slots.set k .free, tx := .idle }
  /-- R169, R171: the end of a notice, or of a packet cut off. -/
  | endPacket {s : State} (h : s.tx.slot = none) : Move s { s with tx := .idle }
  /-- R10, R14, R15: a window's stale flag and channel records. -/
  | mark (s : State) (w : Fin 16) (stale : Bool) (chans : List ChanRec) :
    Move s { s with windows := s.windows.set w { s.windows[w] with stale := stale, chans := chans } }
  /-- R13. -/
  | define {s : State} {w : Fin 16} {d : WindowDef} (chans : List ChanRec)
      (hs : s.windows[w].state = .disabled) (hd : d.acceptable = true) :
    Move s { s with windows := s.windows.set w { s.windows[w] with defn := d, chans := chans } }
  /-- R17, R18. -/
  | enable {s : State} {w : Fin 16} (hs : s.windows[w].state = .disabled)
      (hc : s.conflicts w = false) :
    Move s { s with
      windows := s.windows.set w { s.windows[w] with state := .enabled, stale := false } }
  /-- R19, with no request in flight. -/
  | disable {s : State} {w : Fin 16} (hs : s.windows[w].state = .enabled)
      (ha : s.windows[w].activity = .idle) (hn : s.windows[w].inflight = 0) :
    Move s { s with windows := s.windows.set w { s.windows[w] with state := .disabled } }
  /-- R19, with requests in flight. -/
  | drain {s : State} {w : Fin 16} (trn : Byte) (hs : s.windows[w].state = .enabled)
      (ha : s.windows[w].activity = .idle) (hn : s.windows[w].inflight ≠ 0) :
    Move s { s with
      windows := s.windows.set w
        { s.windows[w] with state := .draining, deferred := some ⟨trn, .disable⟩ } }
  /-- R113, R114. -/
  | startSweep {s : State} {w : Fin 16} {c : Sweep} (trn : Byte) (hp : s.phase = .serving)
      (hs : s.windows[w].state = .enabled) (ha : s.windows[w].activity = .idle)
      (ho : ∀ v : Fin 16, v ≠ w → s.windows[v].activity ≠ .sweeping) (hc : c.window = w) :
    Move s { s with
      windows := s.windows.set w
        { s.windows[w] with activity := .sweeping, deferred := some ⟨trn, .sweep⟩ }
      sweep := some c }
  /-- R117 to R122: the context of the running sweep. -/
  | advance (s : State) {sw : Option Sweep} (h : sw.map Sweep.window = s.sweep.map Sweep.window) :
    Move s { s with sweep := sw }
  /-- R121, R123, R125, R126. -/
  | stopSweep {s : State} {c : Sweep} (h : s.sweep.map Sweep.window = some c.window) :
    Move s { s with
      windows := s.windows.set c.window
        { s.windows[c.window] with activity := .idle, deferred := none }
      sweep := none }
  /-- R132, R133. -/
  | startCapture {s : State} {w : Fin 16} {c : Capture} (trn : Byte)
      (hs : s.windows[w].state = .enabled) (ha : s.windows[w].activity = .idle)
      (hd : s.usBase < 1000 * c.deadline) :
    Move s { s with
      windows := s.windows.set w
        { s.windows[w] with activity := .zeroing, deferred := some ⟨trn, .zero⟩ }
      captures := s.captures.set w (some c) }
  /-- R135. -/
  | sample {s : State} {w : Fin 16} {c : Capture} (acc : Int) (hc : s.captures[w] = some c)
      (hn : c.count + 1 < 2 ^ c.n) :
    Move s { s with
      captures := s.captures.set w (some { c with acc := acc, count := c.count + 1 }) }
  /-- R136, R138, R140. -/
  | stopCapture {s : State} {w : Fin 16} {c : Capture} (h : s.captures[w] = some c) :
    Move s { s with
      windows := s.windows.set w { s.windows[w] with activity := .idle, deferred := none }
      captures := s.captures.set w none }
  /-- R40. -/
  | deny {s : State} {i : Fin 32} {e : Entry} (hp : s.phase = .serving) (hi : s.entries[i] = none)
      (hs : e.state = .ready) (hw : e.window = none) :
    Move s { s with entries := s.entries.set i (some e) }
  /-- R38, R41. -/
  | queue {s : State} {i : Fin 32} {e : Entry} (hp : s.phase = .serving) (hi : s.entries[i] = none)
      (hs : e.state = .queued)
      (hw : ∀ w, e.window = some w → s.windows[w].state = .enabled) :
    Move s (queuedAs s i e.window e)
  /-- R57. -/
  | offer (s : State) : Move s s.offerResponse
  /-- R59, of an entry that records no window. -/
  | deliver {s : State} {i : Fin 32} (ho : s.offered = some i)
      (hw : ∀ e, s.entries[i] = some e → e.window = none) :
    Move s { s with entries := s.entries.set i none, offered := none }
  /-- R59, R8. -/
  | deliverCounted {s : State} {i : Fin 32} {e : Entry} {w : Fin 16} (ho : s.offered = some i)
      (he : s.entries[i] = some e) (hw : e.window = some w)
      (hd : ¬(s.windows[w].state = .draining ∧ s.windows[w].inflight - 1 = 0)) :
    Move s { s with
      entries := s.entries.set i none, offered := none
      windows := s.windows.set w { s.windows[w] with inflight := s.windows[w].inflight - 1 } }
  /-- R59, R8, R20. -/
  | deliverLast {s : State} {i : Fin 32} {e : Entry} {w : Fin 16} (ho : s.offered = some i)
      (he : s.entries[i] = some e) (hw : e.window = some w)
      (hs : s.windows[w].state = .draining) (hn : s.windows[w].inflight - 1 = 0) :
    Move s { s with
      entries := s.entries.set i none, offered := none
      windows := s.windows.set w { s.windows[w] with
        state := .disabled, inflight := s.windows[w].inflight - 1, deferred := none } }
  /-- R46, R71. -/
  | take {s : State} {i : Fin 32} {rest : List (Fin 32)} {e e' : Entry}
      {l : List (Fin 64 × TagRecord)} (hq : s.intake = i :: rest) (he : s.entries[i] = some e)
      (hs : e'.state = .issued) (hw : e'.window = e.window) (hp : e'.pending = l.length)
      (hl : 1 ≤ l.length ∧ l.length ≤ 2) (hd : (l.map Prod.fst).Nodup)
      (hf : ∀ p ∈ l, s.tags[p.1] = .free ∧ p.2.issued = false ∧ ∃ role, p.2.owner = .host i role) :
    Move s { (s.drawTags l).setEntry i (some e') with intake := rest }
  /-- R78. -/
  | drawSweep {s : State} {t : Fin 64} {r : TagRecord} {role : ReqKind} (ht : s.tags[t] = .free)
      (hr : r.issued = false) (ho : r.owner = .sweep role) :
    Move s { s with tags := s.tags.set t (.inUse r) }
  /-- R47, R48. -/
  | issue {s : State} {t : Fin 64} {r : TagRecord} {dl : Option Nat} (ht : s.tags[t] = .inUse r)
      (hd : ∀ d ∈ dl, s.usBase < d) :
    Move s { s with tags := s.tags.set t (.inUse { r with issued := true, deadline := dl }) }
  /-- R50, R53, R55, R56: an answer or expiry of a HOST tag. -/
  | answer {s : State} {t : Fin 64} {r : TagRecord} {i : Fin 32} {role : HostRole} {e : Entry} {x : Tag}
      (ht : s.tags[t] = .inUse r) (ho : r.owner = .host i role) (he : s.entries[i] = some e)
      (hx : x.isInUse = false) (st : HostStatus) :
    Move s { s with tags := s.tags.set t x, entries := s.entries.set i (some (State.answered e st)) }
  /-- R50 to R53: a tag leaves its use, or its quarantine, and no entry is its owner. -/
  | settle {s : State} {t : Fin 64} {x : Tag} (hx : x.isInUse = false)
      (hn : ∀ i, s.ownedBy i t = true → s.entries[i] = none) :
    Move s { s with tags := s.tags.set t x }
  /-- R82 to R85. -/
  | fill {s : State} {i : Fin 32} {e : Entry} (buffer : List Word) (he : s.entries[i] = some e) :
    Move s { s with entries := s.entries.set i (some { e with buffer := buffer }) }
  /-- R180. -/
  | reset (s : State) (markerWritten : Bool) : Move s (s.hardwareReset markerWritten)
  /-- R180 to R182: the next stage of start-up. -/
  | enter (s : State) {p : Phase} (h : p = .serving ∨ s.phase ≠ .serving) : Move s { s with phase := p }
  /-- R181, R186: a load before the opening, or with every window out of service. -/
  | load {s : State} {i : BootImage}
      (hp : s.phase ≠ .serving ∨ ∀ w : Fin 16, s.windows[w].outOfService = true)
      (hi : i = defaultImage ∨ ∃ id, (s.copy id).valid = true ∧ i = decodeImage (s.copy id).payload) :
    Move s (s.loadImage i)
  /-- R178: the status record, its pending commit kept or gone. -/
  | status (s : State) {b : BootStatus} (h : b.commit = none ∨ b.commit = s.boot.commit) :
    Move s { s with boot := b }
  /-- R183. -/
  | commit (s : State) {b : BootStatus} {p : PendingCommit} (hp : p.image = s.snapshot) :
    Move s { s with boot := { b with commit := some p } }
  /-- R183 to R186: a copy without its marker, or with the pending commit's image. -/
  | write (s : State) (id : CopyId) {c : BootCopy}
      (h : c.marker ≠ bootMarker ∨ ∃ p, s.boot.commit = some p ∧ c.payload = encodeImage p.image) :
    Move s (s.setCopy id c)

/-- A run of changes. -/
abbrev Moves : State → State → Prop := Relation.ReflTransGen Move

theorem Move.moves {s t : State} (h : Move s t) : Moves s t := .single h

/-- What every change keeps, a run of changes keeps. -/
theorem Moves.keep {P : State → Prop} (hP : ∀ s t, Move s t → P s → P t) {s t : State}
    (h : Moves s t) (hs : P s) : P t := by
  induction h with
  | refl => exact hs
  | tail _ hm ih => exact hP _ _ hm ih

end Sys2Proof.Machine

/-! PROOFS. Every step is a run of changes: the shared operations, the deadlines, the commands at their
units, and the rows. -/

namespace Sys2Proof.Machine

namespace State

/-! ### Replies of windows and sweeps (R11, R121 to R126, R136 to R140) -/

/-- A window's deferred command, once it has left the window, is answered. -/
theorem endWindowCommand_moves {s t : State} {w : Fin 16} (status : Status) (payload : List Byte)
    (h : Moves s (t.setWindow w { t.windows[w] with deferred := none })) :
    Moves s (t.endWindowCommand w status payload) := by
  unfold endWindowCommand
  cases t.windows[w].deferred with
  | none => exact h
  | some d => exact h.tail (.complete _ d.trn status payload)

/-- A window made idle answers its deferred command. -/
theorem endActivity_moves {s t : State} {w : Fin 16} (status : Status) (payload : List Byte)
    (h : Moves s { t with
      windows := t.windows.set w { t.windows[w] with activity := .idle, deferred := none } }) :
    Moves s (t.endActivity w status payload) := by
  refine endWindowCommand_moves status payload ?_
  simpa only [setWindow, get_set_self, set_set_self] using h

/-- A deferred reply does not look at the sweep or the fairness count. -/
theorem completeDeferred_stopped (s : State) (trn : Byte) (status : Status) (payload : List Byte) :
    { s.completeDeferred trn status payload with sweep := none, fairness := 0 } =
      { s with sweep := none, fairness := 0 }.completeDeferred trn status payload := by
  unfold completeDeferred
  cases s.deferred.find? (·.trn = trn) <;> rfl

/-- The end of a long operation, as the update of its window and the deferred reply. -/
theorem endActivity_eq (s : State) (w : Fin 16) (status : Status) (payload : List Byte) :
    let u := s.setWindow w { s.windows[w] with activity := .idle, deferred := none }
    s.endActivity w status payload =
      s.windows[w].deferred.elim u fun d => u.completeDeferred d.trn status payload := by
  unfold endActivity endWindowCommand
  simp only [setWindow, get_set_self, set_set_self]
  cases s.windows[w].deferred <;> rfl

/-- The running sweep stops. -/
theorem endSweep_moves {s : State} {c : Sweep} (h : s.sweep.map Sweep.window = some c.window)
    (status : Status) (payload : List Byte) : Moves s (s.endSweep c status payload) := by
  have hstop : Moves s { s.setWindow c.window
      { s.windows[c.window] with activity := .idle, deferred := none } with
      sweep := none, fairness := 0 } := (Move.stopSweep h).moves.tail (.untracked _)
  rw [endSweep, endActivity_eq]
  cases s.windows[c.window].deferred with
  | none => exact hstop
  | some d =>
    rw [Option.elim_some, completeDeferred_stopped]
    exact hstop.tail (.complete _ d.trn status payload)

theorem completeSweep_moves {s : State} {c : Sweep} (h : s.sweep.map Sweep.window = some c.window) :
    Moves s (s.completeSweep c) := by
  unfold completeSweep
  dsimp only
  split
  · exact .head (.mark s c.window false s.windows[c.window].chans)
      (endSweep_moves (s := s.setWindow c.window { s.windows[c.window] with stale := false }) h _ _)
  · exact endSweep_moves h _ _

theorem abortSweep_moves {s : State} {c : Sweep} (h : s.sweep.map Sweep.window = some c.window) :
    Moves s (s.abortSweep c) :=
  (endSweep_moves h _ _).tail (.untracked _)

/-! ### Answers (R10, R50, R53, R117 to R123) -/

theorem setStale_moves (s : State) (w : Fin 16) : Moves s (s.setStale w) := by
  refine (Move.mark s w true s.windows[w].chans).moves.tail (.advance _ ?_)
  cases s.sweep with
  | none => rfl
  | some c => simp only [Option.map_some]; split <;> rfl

theorem markStale_moves (s : State) (e : Entry) (st : HostStatus) : Moves s (s.markStale e st) := by
  obtain ⟨w, _, _, _, h⟩ | ⟨_, h⟩ := s.markStale_cases e st
  · exact h ▸ s.setStale_moves w
  · rw [h]

theorem answerSweepRead_moves {s : State} {c : Sweep} (h : s.sweep = some c) (st : HostStatus)
    (ws : List Word) : Moves s (s.answerSweepRead c st ws) := by
  unfold answerSweepRead
  split
  · exact (Move.advance s (by rw [h]; rfl)).moves
  · exact endSweep_moves (by rw [h]; rfl) _ _

theorem answerSweepWrite_moves {s : State} {c : Sweep} (h : s.sweep = some c) (st : HostStatus) :
    Moves s (s.answerSweepWrite c st) := by
  have hd : ∀ d : Sweep, d.window = c.window → s.sweep.map Sweep.window = some d.window :=
    fun d hw => by rw [h, hw]; rfl
  have hw : (if st = .okay then
      { c with done := c.done + 1, cursor := c.cursor + 64, tag := none } else c).window = c.window := by
    split <;> rfl
  unfold answerSweepWrite
  dsimp only
  generalize (if st = .okay then
      { c with done := c.done + 1, cursor := c.cursor + 64, tag := none } else c) = d at hw
  split
  · exact abortSweep_moves (hd _ hw)
  · split
    · exact endSweep_moves (hd c rfl) _ _
    · split
      · exact (Move.advance s (sw := some { d with phase := .readPending }) (hd d hw).symm).moves
      · exact completeSweep_moves (hd _ hw)

theorem answerSweep_moves (s : State) (t : Fin 64) (st : HostStatus) (ws : List Word) :
    Moves s (s.answerSweep t st ws) := by
  unfold answerSweep
  split
  · exact .refl
  · rename_i c hc
    split
    · split
      · exact answerSweepRead_moves hc st ws
      · exact answerSweepWrite_moves hc st
      · exact .refl
    · exact .refl

section
variable {s : State} {t : Fin 64} {r : TagRecord} {x : Tag}

/-- A HOST tag leaves its use with the answer to its entry. -/
theorem setTag_answerEntry_moves {i : Fin 32} {role : HostRole} (ht : s.tags[t] = .inUse r)
    (ho : r.owner = .host i role) (hx : x.isInUse = false) (st : HostStatus) :
    Moves s ((s.setTag t x).answerEntry i st) := by
  cases he : s.entries[i] with
  | none =>
    rw [answerEntry_of_none (by exact he)]
    refine (Move.settle hx fun j hj => ?_).moves
    have hij : i = j := by simpa [ownedBy, ht, ho] using hj
    exact hij ▸ he
  | some e =>
    rw [answerEntry_of_some (by exact he)]
    exact .head (.answer ht ho he hx st) (markStale_moves _ e st)

/-- A SWEEP tag leaves its use, and the sweep unit gets the answer. -/
theorem setTag_answerSweep_moves {role : ReqKind} (ht : s.tags[t] = .inUse r)
    (ho : r.owner = .sweep role) (hx : x.isInUse = false) (st : HostStatus) (ws : List Word) :
    Moves s ((s.setTag t x).answerSweep t st ws) := by
  refine .head (.settle hx fun j hj => ?_) (answerSweep_moves _ t st ws)
  simp [ownedBy, ht, ho] at hj

/-- A notice offered does not look at the tags. -/
theorem offerNotice_setTag (s : State) (t : Fin 64) (x : Tag) (b : NoticeBody) :
    (s.setTag t x).offerNotice b = (s.offerNotice b).setTag t x := by
  unfold offerNotice
  rw [apply_ite (setTag · t x)]
  rfl

/-- A fault offered does not look at the tags. -/
theorem offerFault_setTag (s : State) (t : Fin 64) (x : Tag) (f : FaultInfo) :
    (s.setTag t x).offerFault f = (s.offerFault f).setTag t x := by
  have happend : (s.setTag t x).appendFault f = (s.appendFault f).setTag t x :=
    offerNotice_setTag { s with faults := s.faults ++ [⟨f, s.tbValue, 1⟩], alert := true } t x _
  unfold offerFault
  rw [setTag_faults, happend]
  cases s.faults.getLast? with
  | none => rfl
  | some r =>
    simp only [apply_ite (setTag · t x)]
    rfl

/-- The words placed do not look at the tags. -/
theorem placeRead_setTag (s : State) (t : Fin 64) (x : Tag) (i : Fin 32) (ws : List Word) :
    (s.setTag t x).placeRead i ws = (s.placeRead i ws).setTag t x := by
  unfold placeRead
  rw [setTag_entries]
  cases s.entries[i] <;> rfl

theorem placeRead_moves (s : State) (i : Fin 32) (ws : List Word) : Moves s (s.placeRead i ws) := by
  cases he : s.entries[i] with
  | none => simp only [placeRead, he]; exact .refl
  | some e => rw [placeRead_of_some he]; exact (Move.fill _ he).moves

theorem placeRead_tags (s : State) (i : Fin 32) (ws : List Word) :
    (s.placeRead i ws).tags = s.tags := by
  unfold placeRead
  cases s.entries[i] <;> rfl

theorem expireTag_moves (ht : s.tags[t] = .inUse r) : Moves s (s.expireTag t r) := by
  have hf : (s.offerFault (tagFault .expired r)).tags[t] = .inUse r := by
    rw [(s.offerFault_keeps _).2.2.2.2.2.1, ht]
  unfold expireTag
  rw [offerFault_setTag]
  dsimp only
  split
  · rename_i i role ho
    exact .head (.offerFault s _) (setTag_answerEntry_moves hf ho rfl _)
  · rename_i role ho
    exact .head (.offerFault s _) (setTag_answerSweep_moves hf ho rfl _ _)

/-- The fault that an answer's status offers. -/
theorem answerTag_fault_moves (s : State) (st : MemStatus) (f : FaultInfo) :
    Moves s (if st = .error then s.offerFault f else s)
      ∧ (if st = .error then s.offerFault f else s).tags = s.tags := by
  split
  · exact ⟨(Move.offerFault s f).moves, (s.offerFault_keeps f).2.2.2.2.2.1⟩
  · exact ⟨.refl, rfl⟩

theorem answerTag_moves (ht : s.tags[t] = .inUse r) (st : MemStatus) (ws : List Word) :
    Moves s (s.answerTag t r st ws) := by
  obtain ⟨hm, htags⟩ := s.answerTag_fault_moves st (tagFault (memerrKind r.kind) r)
  rw [← htags] at ht
  have hswap : (if st = .error then (s.setTag t .free).offerFault (tagFault (memerrKind r.kind) r)
      else s.setTag t .free) =
      (if st = .error then s.offerFault (tagFault (memerrKind r.kind) r) else s).setTag t .free := by
    rw [offerFault_setTag]
    split <;> rfl
  unfold answerTag
  dsimp only
  rw [hswap]
  refine hm.trans ?_
  generalize (if st = .error then s.offerFault (tagFault (memerrKind r.kind) r) else s) = f at ht
  split
  · rename_i i role ho
    split
    · rw [placeRead_setTag]
      rw [← f.placeRead_tags i ws] at ht
      exact (f.placeRead_moves i ws).trans (setTag_answerEntry_moves ht ho rfl _)
    · exact setTag_answerEntry_moves ht ho rfl _
  · rename_i role ho
    exact setTag_answerSweep_moves ht ho rfl _ _

end

/-! ### Deadlines and the step of the base (R143) -/

theorem passTag_moves (s : State) (t : Fin 64) : Moves s (s.passTag t) := by
  unfold passTag
  split
  · rename_i r hr
    split
    · exact (expireTag_moves hr).tail (.offer _)
    · exact .refl
  · exact .refl

theorem stopCapture_moves {s : State} {w : Fin 16} {c : Capture} (h : s.captures[w] = some c)
    (status : Status) (payload : List Byte) :
    Moves s ((s.setCapture w none).endActivity w status payload) :=
  endActivity_moves status payload (Move.stopCapture h).moves

theorem passCapture_moves (s : State) (w : Fin 16) : Moves s (s.passCapture w) := by
  unfold passCapture
  split
  · exact .refl
  · rename_i c hc
    split
    · exact stopCapture_moves hc _ _
    · exact .refl

theorem countersSound_bumpFraming {c : LinkCounters} (h : CountersSound c) :
    CountersSound c.bumpFraming :=
  ⟨satInc_le h.1, h.2⟩

theorem dropPacket_move (s : State) : Move s s.dropPacket := .receive s (.inl rfl)

theorem endGap_moves (s : State) : Moves s s.endGap :=
  s.dropPacket_move.moves.tail (.count _ countersSound_bumpFraming)

theorem passGap_moves (s : State) : Moves s s.passGap := by
  unfold passGap
  split
  · exact s.endGap_moves
  · exact .refl

theorem detectBreak_moves (s : State) : Moves s s.detectBreak := by
  unfold detectBreak
  split
  · exact ((s.dropPacket_move.moves.tail (.lineBreak _)).tail (.count _
      (c := { s.counters with breaks := satInc 65535 s.counters.breaks })
      fun ⟨h1, h2, h3, h4, h5⟩ => ⟨h1, h2, h3, h4, satInc_le h5⟩)).tail
      (.untracked _ (breakLow := true))
  · exact .refl

theorem takeEvent_moves (s : State) (e : StepEvent) : Moves s (s.takeEvent e) := by
  cases e with
  | expiry t => exact s.passTag_moves t
  | captureDeadline w => exact s.passCapture_moves w
  | interByteGap => exact s.passGap_moves
  | lineBreak => exact s.detectBreak_moves

/-- A fold of runs is a run. -/
theorem foldl_moves {α : Type} {f : State → α → State} (h : ∀ s a, Moves s (f s a)) (l : List α)
    (s : State) : Moves s (l.foldl f s) := by
  induction l generalizing s with
  | nil => exact .refl
  | cons a l ih => exact (h s a).trans (ih _)

theorem passDeadlines_moves (s : State) : Moves s s.passDeadlines := by
  rw [passDeadlines_eq]
  exact ((foldl_moves passTag_moves _ _).trans (foldl_moves passCapture_moves _ _)).trans
    (passGap_moves _)

theorem countEvent_moves (s : State) (source : TbSource) : Moves s (s.countEvent source) := by
  unfold countEvent
  split
  · exact (Move.untracked s).moves
  · exact .refl

/-! ### The sample stream (R77) -/

theorem watchSample_moves (s : State) (w : Fin 16) (stamp : Word) (x : Sample) (k : Fin 16) :
    Moves s (s.watchSample w stamp x k) := by
  have hmon (m : Monitor) : Moves s (s.setMonitor k m) := (Move.untracked s).moves
  unfold watchSample
  dsimp only
  split
  · exact .refl
  · split
    · split
      · exact hmon _
      · split
        · exact (hmon _).tail (.offerNotice _ _)
        · exact hmon _
    · exact .refl

theorem watch_moves (s : State) (w : Fin 16) (stamp : Word) (x : Sample) :
    Moves s (s.watch w stamp x) := by
  unfold watch
  split
  · exact foldl_moves (fun s k => s.watchSample_moves w stamp x k) _ s
  · exact .refl

theorem completeCapture_moves {s : State} {w : Fin 16} {c : Capture} (h : s.captures[w] = some c)
    (k : Capture) : Moves s (s.completeCapture w k) := by
  unfold completeCapture
  dsimp only
  generalize List.set s.windows[w].chans _ _ = chans
  refine (Move.mark s w s.windows[w].stale chans).moves.trans ?_
  split
  · refine (setStale_moves _ w).trans (stopCapture_moves (c := c) ?_ _ _)
    exact h
  · refine stopCapture_moves (c := c) ?_ _ _
    exact h

theorem accumulate_moves (s : State) (w : Fin 16) (x : Sample) : Moves s (s.accumulate w x) := by
  obtain ⟨k, hk, _, _, h⟩ | ⟨k, hk, _, hn, h⟩ | ⟨_, h⟩ := s.accumulate_cases w x
  · exact h ▸ completeCapture_moves hk _
  · exact h ▸ (Move.sample _ hk hn).moves
  · rw [h]

theorem handSample_moves (s : State) (w : Fin 16) (stamp : Word) (x : Sample) :
    Moves s (s.handSample w stamp x) :=
  (.head (.untracked s) ((watch_moves _ w stamp x).trans (accumulate_moves _ w x)))

theorem handTaken_moves (s : State) (e : Entry) (x : Option (Fin 16 × Window)) :
    Moves s (s.handTaken e x) := by
  unfold handTaken
  split
  · exact foldl_moves (fun t x => t.handSample_moves _ s.tbValue x) _ s
  · exact .refl

end State

end Sys2Proof.Machine

/-! PROOFS. Every step is a run of changes, continued: the commands at their units. -/

namespace Sys2Proof.Machine

namespace State

/-! ### The boot store (R181, R183, R184, R186) -/

/-- The slots and the level of the line replaced: what a reserved slot changes. -/
def withSlots (s : State) (sl : Vector Slot 16) (high : Bool) : State :=
  { s with slots := sl, rxHigh := high }

theorem held_eq_withSlots (s : State) (k : Fin 16) (x : Slot) :
    s.seeHigh.setSlot k x = s.withSlots (s.slots.set k x) true := rfl

section
variable (s : State) (sl : Vector Slot 16) (high : Bool)

theorem offerNotice_withSlots (b : NoticeBody) :
    (s.withSlots sl high).offerNotice b = (s.offerNotice b).withSlots sl high := by
  unfold offerNotice
  rw [apply_ite (withSlots · sl high)]
  rfl

/-- A fault offered does not look at the slots, nor at the line. -/
theorem offerFault_withSlots (f : FaultInfo) :
    (s.withSlots sl high).offerFault f = (s.offerFault f).withSlots sl high := by
  have happend : (s.withSlots sl high).appendFault f = (s.appendFault f).withSlots sl high :=
    offerNotice_withSlots { s with faults := s.faults ++ [⟨f, s.tbValue, 1⟩], alert := true } sl high _
  have hfaults : (s.withSlots sl high).faults = s.faults := rfl
  unfold offerFault
  rw [happend, hfaults]
  cases s.faults.getLast? with
  | none => rfl
  | some r =>
    simp only [apply_ite (withSlots · sl high)]
    rfl

theorem offerBootFault_withSlots :
    (s.withSlots sl high).offerBootFault = s.offerBootFault.withSlots sl high := by
  have hboot : (s.withSlots sl high).boot = s.boot := rfl
  unfold offerBootFault
  rw [hboot]
  cases s.boot.genA <;> cases s.boot.genB <;> simp only [offerFault_withSlots]

/-- The store read and loaded, as a BOOT_RELOAD and the load of start-up do it (R181, R186). -/
def reloaded (lostA lostB : Bool) : State :=
  let r := (s.loseCopies lostA lostB).readStore
  (r.loadImage r.activeImage).offerBootFault

theorem reloaded_withSlots (lostA lostB : Bool) :
    (s.withSlots sl high).reloaded lostA lostB = (s.reloaded lostA lostB).withSlots sl high := by
  have hr : ((s.withSlots sl high).loseCopies lostA lostB).readStore =
      ((s.loseCopies lostA lostB).readStore).withSlots sl high := by
    cases lostA <;> cases lostB <;> rfl
  have hi : ∀ r : State, (r.withSlots sl high).activeImage = r.activeImage := by
    intro r
    unfold activeImage
    cases h : r.boot.active with
    | none => simp only [withSlots, h]
    | some id => simp only [withSlots, h]; cases id <;> rfl
  unfold reloaded
  dsimp only
  rw [hr, hi, ← offerBootFault_withSlots]
  rfl

end

/-- The boot fault is offered, or there is none. -/
theorem offerBootFault_cases (s : State) :
    s.offerBootFault = s ∨ ∃ f, s.offerBootFault = s.offerFault f := by
  unfold offerBootFault
  cases s.boot.genA <;> cases s.boot.genB
  case some.some => exact .inl rfl
  all_goals exact .inr ⟨_, rfl⟩

theorem offerFault_slots (s : State) (f : FaultInfo) : (s.offerFault f).slots = s.slots := by
  obtain ⟨_, _, _, _, _, h⟩ := s.offerFault_frame f
  rw [h]

theorem offerBootFault_slots (s : State) : s.offerBootFault.slots = s.slots := by
  obtain h | ⟨f, h⟩ := s.offerBootFault_cases
  · rw [h]
  · rw [h, offerFault_slots]

theorem loseCopies_slots (s : State) (lostA lostB : Bool) :
    (s.loseCopies lostA lostB).slots = s.slots := by
  cases lostA <;> cases lostB <;> rfl

theorem takeBootReload_of_held (s : State) (k : Fin 16) (unit trn : Byte) (lostA lostB : Bool) :
    takeBootReload lostA lostB ⟨unit, trn, k⟩ (s.seeHigh.setSlot k (.held trn unit)) =
      if s.boot.commit.isSome then replied s k unit trn .busy []
      else if !s.windows.toList.all Window.outOfService then replied s k unit trn .wrongState []
      else replied (s.reloaded lostA lostB) k unit trn .ok
        (copyPayload (s.loseCopies lostA lostB).readStore.boot.active
          (s.loseCopies lostA lostB).readStore.boot.activeGeneration) := by
  have hr : (s.seeHigh.setSlot k (.held trn unit)).reloaded lostA lostB =
      (s.reloaded lostA lostB).withSlots (s.slots.set k (.held trn unit)) true :=
    s.reloaded_withSlots _ _ lostA lostB
  have hb : ((s.seeHigh.setSlot k (.held trn unit)).loseCopies lostA lostB).readStore.boot =
      (s.loseCopies lostA lostB).readStore.boot := by
    have hl : (s.seeHigh.setSlot k (.held trn unit)).loseCopies lostA lostB =
        (s.loseCopies lostA lostB).withSlots (s.slots.set k (.held trn unit)) true := by
      cases lostA <;> cases lostB <;> rfl
    rw [hl]
    rfl
  have hs : (s.reloaded lostA lostB).slots = s.slots := by
    rw [reloaded, offerBootFault_slots]
    exact s.loseCopies_slots lostA lostB
  have hlast (p : List Byte) : ((s.seeHigh.setSlot k (.held trn unit)).reloaded lostA lostB).reply
      ⟨unit, trn, k⟩ .ok p = replied (s.reloaded lostA lostB) k unit trn .ok p :=
    reply_of_updated (s := s) (x := .held trn unit) hr hs
  unfold takeBootReload
  simp only [refuse_of_held, hb]
  exact if_congr Iff.rfl rfl (if_congr Iff.rfl rfl (hlast _))

theorem clearMarker_move (s : State) (id : CopyId) : Move s (s.clearMarker id) :=
  .write s id (.inl (show (0 : Word) ≠ bootMarker by decide))

theorem loseCopies_moves (s : State) (lostA lostB : Bool) : Moves s (s.loseCopies lostA lostB) := by
  cases lostA <;> cases lostB
  · exact .refl
  · exact (s.clearMarker_move .b).moves
  · exact (s.clearMarker_move .a).moves
  · exact (s.clearMarker_move .a).moves.tail (clearMarker_move _ .b)

/-- What a load takes is a valid copy's image, or the defaults (R181). -/
theorem activeImage_readStore (s : State) : s.readStore.activeImage = defaultImage
    ∨ ∃ id, (s.copy id).valid = true ∧ s.readStore.activeImage = decodeImage (s.copy id).payload := by
  have hactive : ∀ id, activeCopy s.copyA.validGeneration s.copyB.validGeneration = some id →
      (s.copy id).validGeneration ≠ none := by
    intro id
    unfold activeCopy
    cases ha : s.copyA.validGeneration <;> cases hb : s.copyB.validGeneration <;> cases id <;>
      simp [copy, ha, hb]
  cases h : activeCopy s.copyA.validGeneration s.copyB.validGeneration with
  | none => exact .inl (by simp only [activeImage, readStore, h])
  | some id =>
    refine .inr ⟨id, ?_, ?_⟩
    · have := hactive id h
      unfold BootCopy.validGeneration at this
      by_contra hv
      exact this (if_neg hv)
    · simp only [activeImage, readStore, h]
      cases id <;> rfl

theorem offerBootFault_moves (s : State) : Moves s s.offerBootFault := by
  obtain h | ⟨f, h⟩ := s.offerBootFault_cases
  · rw [h]
  · exact h ▸ (Move.offerFault s f).moves

theorem reloaded_moves (s : State) (lostA lostB : Bool)
    (h : s.phase ≠ .serving ∨ ∀ w : Fin 16, s.windows[w].outOfService = true) :
    Moves s (s.reloaded lostA lostB) := by
  have hload : Move (s.loseCopies lostA lostB).readStore ((s.loseCopies lostA lostB).readStore.loadImage
      (s.loseCopies lostA lostB).readStore.activeImage) :=
    .load (by cases lostA <;> cases lostB <;> exact h)
      (activeImage_readStore (s.loseCopies lostA lostB))
  exact (((s.loseCopies_moves lostA lostB).tail (.status _ (.inl rfl))).tail hload).trans
    (offerBootFault_moves _)

/-- The load of start-up is BOOT_RELOAD's, at the next stage. -/
theorem load_moves {s : State} (h : s.phase = .reading) (lostA lostB : Bool) :
    Moves s (s.load lostA lostB) := by
  have heq : s.load lostA lostB = { s with phase := .loaded }.reloaded lostA lostB := by
    cases lostA <;> cases lostB <;> rfl
  rw [heq]
  exact .head (.enter s (.inr (by rw [h]; decide))) (reloaded_moves _ lostA lostB (.inl nofun))

theorem endCommit_moves (s : State) (p : PendingCommit) (status : Status) :
    Moves s (s.endCommit p status) :=
  (Move.status s (.inl rfl)).moves.tail (.complete _ p.trn status _)

theorem failCommitBody_moves (s : State) (p : PendingCommit) (readBack : List Byte) :
    Moves s (s.failCommitBody p readBack) := by
  unfold failCommitBody
  dsimp only
  split
  · exact .refl
  · refine .head (.write s p.target (.inl ?_)) (endCommit_moves _ p .failed)
    rw [BootCopy.ofBytes, wordAt_le32_append]
    exact show (0 : Word) ≠ bootMarker by decide

theorem endCommitMarker_moves {s : State} {p : PendingCommit} (hp : s.boot.commit = some p)
    (marker : Word) : Moves s (s.endCommitMarker p marker) := by
  have hw := Move.write s p.target (c := { writtenCopy p.generation p.image with marker := marker })
    (.inr ⟨p, hp, rfl⟩)
  unfold endCommitMarker
  dsimp only
  split
  · refine (hw.moves.tail (.status _ (.inr ?_))).trans (endCommit_moves _ p .ok)
    cases p.target <;> rfl
  · exact hw.moves.trans (endCommit_moves _ p .failed)

/-! ### ABORT (R124 to R126, R140) -/

theorem abort_stopSweep_moves (s : State) (w : Fin 16) : Moves s (s.stopSweep w) := by
  unfold stopSweep
  split
  · exact .refl
  · rename_i c hc
    split
    · split
      · exact (Move.advance s (by rw [hc]; rfl)).moves
      · exact abortSweep_moves (by rw [hc]; rfl)
    · exact .refl

theorem abort_stopCapture_moves (s : State) (w : Fin 16) : Moves s (s.stopCapture w) := by
  unfold stopCapture
  split
  · exact .refl
  · rename_i c hc
    exact stopCapture_moves hc _ _

end State

/-! ### The commands at their units -/

/-- A unit acts on a command, whose slot has just been reserved, by a run of changes. -/
def Acts (take : Ctx → State → State) : Prop :=
  ∀ (s : State) (k : Fin 16) (unit trn : Byte), s.phase = .serving → s.slots[k] = .free →
    s.trnPending trn = false →
    Moves s (take ⟨unit, trn, k⟩ (s.seeHigh.setSlot k (.held trn unit)))

section
variable {s : State} {k : Fin 16}

theorem Moves.reply {u : State} (h : Moves s u) (hu : u.slots = s.slots) (hk : s.slots[k] = .free)
    (unit trn : Byte) (st : Status) (p : List Byte) : Moves s (replied u k unit trn st p) :=
  h.tail (.reply unit trn st p (by rw [hu, hk]))

theorem Moves.register {u : State} {trn : Byte} (h : Moves s u) (hu : u.slots = s.slots)
    (hd : u.deferred = s.deferred) (hk : s.slots[k] = .free) (ht : s.trnPending trn = false)
    (unit code : Byte) : Moves s (registered u k unit trn code) :=
  h.tail (.register unit code (by rw [hu, hk]) (by rw [State.trnPending, hd]; exact ht))

theorem replied_moves (hk : s.slots[k] = .free) (unit trn : Byte) (st : Status) (p : List Byte) :
    Moves s (replied s k unit trn st p) :=
  Moves.reply .refl rfl hk unit trn st p

end

theorem takeGetIdentity_acts : Acts takeGetIdentity := fun s k unit trn _ hk _ => by
  rw [takeGetIdentity, State.reply_of_held]
  exact replied_moves hk ..

theorem takeGetStatus_acts : Acts takeGetStatus := fun s k unit trn _ hk _ => by
  rw [State.takeGetStatus_of_held]
  exact replied_moves hk ..

theorem takeSetLimits_acts (limit : Half) : Acts (takeSetLimits limit) :=
  fun s k unit trn _ hk _ => by
    have h : takeSetLimits limit ⟨unit, trn, k⟩ (s.seeHigh.setSlot k (.held trn unit)) =
        replied { s with limit := limit } k unit trn .ok (le16 s.limit) :=
      State.reply_of_updated (x := .held trn unit) rfl rfl
    rw [h]
    exact (Move.untracked s).moves.reply (by rfl) hk ..

theorem takeGetLinkCounters_acts (flags : Byte) : Acts (takeGetLinkCounters flags) :=
  fun s k unit trn _ hk _ => by
    have h : takeGetLinkCounters flags ⟨unit, trn, k⟩ (s.seeHigh.setSlot k (.held trn unit)) =
        replied { s with counters := if flags.getLsbD 0 then ⟨0, 0, 0, 0, 0⟩ else s.counters }
          k unit trn .ok (countersPayload s.counters) :=
      State.reply_of_updated (x := .held trn unit) rfl rfl
    rw [h]
    refine Moves.reply (Move.count s fun h => ?_).moves (by rfl) hk ..
    split
    · decide
    · exact h

theorem takeDefine_acts (w : Fin 16) (base : Word) (pages : Half) (mode format count flags : Byte)
    (shadow : Word) : Acts (takeDefine w base pages mode format count flags shadow) :=
  fun s k unit trn _ hk _ => by
    rw [State.takeDefine_of_held]
    split
    · rename_i hs
      cases hd : (definitionOf base pages mode format count flags shadow).filter
          WindowDef.acceptable with
      | none => exact replied_moves hk ..
      | some d => exact (Move.define _ hs (Option.mem_filter_iff.1 hd).2).moves.reply (by rfl) hk ..
    · exact replied_moves hk ..

theorem takeSetChannel_acts (w : Fin 16) (channel : Byte) (r : ChanRec) :
    Acts (takeSetChannel w channel r) := fun s k unit trn _ hk _ => by
  rw [State.takeSetChannel_of_held]
  split
  · split
    · split
      · refine Moves.reply ((Move.mark s w true _).moves.tail (.advance _ ?_)) (by rfl) hk ..
        cases s.sweep with
        | none => rfl
        | some c => simp only [Option.map_some]; split <;> rfl
      · exact (Move.mark s w s.windows[w].stale _).moves.reply (by rfl) hk ..
    · exact replied_moves hk ..
  · exact replied_moves hk ..

theorem takeEnable_acts (w : Fin 16) : Acts (takeEnable w) := fun s k unit trn _ hk _ => by
  rw [State.takeEnable_of_held]
  split
  · rename_i hs
    split
    · exact replied_moves hk ..
    · rename_i hc
      split
      · exact replied_moves hk ..
      · exact Moves.reply ((Move.enable hs (Bool.eq_false_iff.2 hc)).moves.tail (.untracked _)) (by rfl) hk ..
  · exact replied_moves hk ..

theorem takeDisable_acts (w : Fin 16) : Acts (takeDisable w) := fun s k unit trn _ hk ht => by
  rw [State.takeDisable_of_held]
  split
  · rename_i hs
    split
    · rename_i ha
      split
      · rename_i hn
        exact Moves.reply ((Move.disable hs ha hn).moves.tail (.untracked _)) (by rfl) hk ..
      · rename_i hn
        exact Moves.register ((Move.drain trn hs ha hn).moves.tail (.untracked _)) (by rfl) (by rfl) hk ht ..
    · exact replied_moves hk ..
  · exact replied_moves hk ..

theorem takeQuery_acts (w : Fin 16) (channel : Byte) : Acts (takeQuery w channel) :=
  fun s k unit trn _ hk _ => by
    rw [State.takeQuery_of_held]
    split <;> exact replied_moves hk ..

theorem takeSweep_acts (w : Fin 16) (start count : Half) : Acts (takeSweep w start count) :=
  fun s k unit trn hp hk ht => by
    rw [State.takeSweep_of_held]
    split
    · rename_i hs
      split
      · rename_i ha
        split
        · exact replied_moves hk ..
        · split
          · exact replied_moves hk ..
          · rename_i ho
            split
            · exact replied_moves hk ..
            · refine Moves.register (Move.startSweep trn hp hs ha (fun v hv hsw => ?_) rfl).moves
                (by rfl) (by rfl) hk ht ..
              exact ho ⟨v, hv, hsw⟩
      · exact replied_moves hk ..
    · exact replied_moves hk ..

theorem takeZeroCapture_acts (w : Fin 16) (channel n : Byte) (limit : Half) :
    Acts (takeZeroCapture w channel n limit) := fun s k unit trn _ hk ht => by
  rw [State.takeZeroCapture_of_held]
  split
  · rename_i hs
    split
    · rename_i ha
      split
      · rename_i hg
        obtain ⟨_, _, _, hl⟩ := hg
        have hpos : limit.toNat ≠ 0 := fun h => hl (BitVec.eq_of_toNat_eq h)
        exact (Move.startCapture trn hs ha (by dsimp only; omega)).moves.register (by rfl) (by rfl) hk ht ..
      · exact replied_moves hk ..
    · exact replied_moves hk ..
  · exact replied_moves hk ..

theorem takeAbort_acts (w : Fin 16) : Acts (takeAbort w) := fun s k unit trn _ hk _ => by
  rw [State.takeAbort_of_held]
  split
  · split
    · exact (replied_moves hk ..).trans (State.abort_stopSweep_moves _ w)
    · exact (replied_moves hk ..).trans (State.abort_stopCapture_moves _ w)
  · exact replied_moves hk ..

theorem takeReadStats_acts (w : Fin 16) (slot flags : Byte) : Acts (takeReadStats w slot flags) :=
  fun s k unit trn _ hk _ => by
    rw [State.takeReadStats_of_held]
    split
    · split
      · exact (Move.untracked s).moves.reply (by rfl) hk ..
      · exact replied_moves hk ..
    · exact replied_moves hk ..

theorem takeMonSet_acts (monitor window channel : Byte) (level hysteresis : Half)
    (direction mode : Byte) :
    Acts (takeMonSet monitor window channel level hysteresis direction mode) :=
  fun s k unit trn _ hk _ => by
    rw [State.takeMonSet_of_held]
    cases decodeIndex monitor with
    | none => exact replied_moves hk ..
    | some m =>
      cases bindingOf s window channel level hysteresis direction mode with
      | none => exact replied_moves hk ..
      | some b => exact (Move.untracked s).moves.reply (by rfl) hk ..

theorem takeMonArm_acts (monitor : Byte) : Acts (takeMonArm monitor) :=
  fun s k unit trn _ hk _ => by
    rw [State.takeMonArm_of_held]
    cases decodeIndex monitor with
    | none => exact replied_moves hk ..
    | some m =>
      rw [Option.map_some, Option.getD_some]
      split
      · exact replied_moves hk ..
      · exact (Move.untracked s).moves.reply (by rfl) hk ..

theorem takeMonRelease_acts (monitor : Byte) : Acts (takeMonRelease monitor) :=
  fun s k unit trn _ hk _ => by
    rw [State.takeMonRelease_of_held]
    cases decodeIndex monitor with
    | none => exact replied_moves hk ..
    | some m => exact (Move.untracked s).moves.reply (by rfl) hk ..

theorem takeMonQuery_acts (monitor : Byte) : Acts (takeMonQuery monitor) :=
  fun s k unit trn _ hk _ => by
    rw [State.takeMonQuery_of_held]
    cases decodeIndex monitor <;> exact replied_moves hk ..

theorem takeTbSet_acts (source edge : Byte) (preset : Word) : Acts (takeTbSet source edge preset) :=
  fun s k unit trn _ hk _ => by
    rw [State.takeTbSet_of_held]
    cases decodeSource source with
    | none => exact replied_moves hk ..
    | some src =>
      cases decodeEdge edge with
      | none => exact replied_moves hk ..
      | some e => exact (Move.untracked s).moves.reply (by rfl) hk ..

theorem takeTbRead_acts : Acts takeTbRead := fun s k unit trn _ hk _ => by
  rw [State.takeTbRead_of_held]
  exact replied_moves hk ..

theorem takeFaultPeek_acts : Acts takeFaultPeek := fun s k unit trn _ hk _ => by
  rw [State.takeFaultPeek_of_held]
  exact replied_moves hk ..

theorem takeFaultPop_acts : Acts takeFaultPop := fun s k unit trn _ hk _ => by
  cases h : s.faults with
  | nil => rw [State.takeFaultPop_of_held_of_nil _ _ _ _ h]; exact replied_moves hk ..
  | cons r rest =>
    rw [State.takeFaultPop_of_held_of_cons _ _ _ _ h]
    exact (Move.popFault h).moves.reply (by rfl) hk ..

theorem takeFaultClear_acts : Acts takeFaultClear := fun s k unit trn _ hk _ => by
  rw [State.takeFaultClear_of_held]
  exact (Move.clearFaults s).moves.reply (by rfl) hk ..

theorem takeBootCommit_acts : Acts takeBootCommit := fun s k unit trn _ hk ht => by
  rw [State.takeBootCommit_of_held]
  split
  · exact replied_moves hk ..
  · split
    · exact replied_moves hk ..
    · generalize commitTarget s.boot.active = id
      refine Moves.register ((s.clearMarker_move id).moves.tail (.commit _ ?_)) ?_ ?_ hk ht .. <;>
        cases id <;> rfl

theorem takeBootReload_acts (lostA lostB : Bool) : Acts (takeBootReload lostA lostB) :=
  fun s k unit trn _ hk _ => by
    rw [State.takeBootReload_of_held]
    split
    · exact replied_moves hk ..
    · split
      · exact replied_moves hk ..
      · rename_i hout
        refine Moves.reply (s.reloaded_moves lostA lostB (.inr fun w => ?_)) ?_ hk ..
        · rw [Bool.not_eq_true', Bool.not_eq_false, List.all_eq_true] at hout
          exact hout _ (by simp)
        · rw [State.reloaded, State.offerBootFault_slots]
          exact s.loseCopies_slots lostA lostB

theorem takeBootQuery_acts : Acts takeBootQuery := fun s k unit trn _ hk _ => by
  rw [State.takeBootQuery_of_held]
  split <;> exact replied_moves hk ..

theorem refuse_acts (st : Status) : Acts fun c s => s.refuse c st := fun s k unit trn _ hk _ => by
  show Moves s ((s.seeHigh.setSlot k (.held trn unit)).refuse ⟨unit, trn, k⟩ st)
  rw [State.refuse_of_held]
  exact replied_moves hk ..

/-! ### The dispatcher (R160 to R163) -/

theorem takeDefined_acts (u : UnitId) (p : Packet) : Acts (takeDefined u p) := by
  unfold takeDefined
  dsimp only
  split
  · exact takeGetIdentity_acts
  · exact takeGetStatus_acts
  · exact takeSetLimits_acts _
  · exact takeGetLinkCounters_acts _
  · exact takeDefine_acts _ _ _ _ _ _ _ _
  · exact takeSetChannel_acts _ _ _
  · exact takeEnable_acts _
  · exact takeDisable_acts _
  · exact takeQuery_acts _ _
  · exact takeSweep_acts _ _ _
  · exact takeZeroCapture_acts _ _ _ _
  · exact takeAbort_acts _
  · exact takeReadStats_acts _ _ _
  · exact takeMonSet_acts _ _ _ _ _ _ _
  · exact takeMonArm_acts _
  · exact takeMonRelease_acts _
  · exact takeMonQuery_acts _
  · exact takeTbSet_acts _ _ _
  · exact takeTbRead_acts
  · exact takeFaultPeek_acts
  · exact takeFaultPop_acts
  · exact takeFaultClear_acts
  · exact takeBootCommit_acts
  · exact takeBootReload_acts _ _
  · exact takeBootQuery_acts
  · exact refuse_acts .noCommand

theorem takePacket_acts (p : Packet) : Acts (takePacket p) := by
  intro s k unit trn hp hk ht
  unfold takePacket
  split
  · exact takeDefined_acts _ p s k unit trn hp hk ht
  · exact refuse_acts _ s k unit trn hp hk ht
  · exact refuse_acts .noUnit s k unit trn hp hk ht

theorem dispatch_moves {s : State} (hp : s.phase = .serving) (unit trn : Byte)
    {take : Ctx → State → State} (h : Acts take) : Moves s (s.dispatch unit trn take) := by
  have hhigh : Moves s s.seeHigh := (Move.untracked s).moves
  obtain ⟨_, heq⟩ | ⟨_, heq⟩ | ⟨k, hk, _, heq⟩ | ⟨k, hk, ht, heq⟩ := s.dispatch_cases unit trn take
  · exact heq ▸ hhigh.tail (.count _ (c := { s.counters with
      badTrn := satInc 65535 s.counters.badTrn })
      fun ⟨h1, h2, h3, h4, h5⟩ => ⟨h1, h2, satInc_le h3, h4, h5⟩)
  · exact heq ▸ hhigh.tail (.count _ (c := { s.counters with
      overrun := satInc 65535 s.counters.overrun })
      fun ⟨h1, h2, h3, h4, h5⟩ => ⟨h1, h2, h3, satInc_le h4, h5⟩)
  · rw [heq, State.refuse_of_held]
    exact replied_moves hk ..
  · exact heq ▸ h s k unit trn hp hk ht

theorem command_moves (s : State) (unit trn : Byte) {take : Ctx → State → State} (h : Acts take) :
    Moves s (s.command unit trn take) := by
  unfold State.command
  split
  · rename_i hl
    rw [State.linkReceives, Bool.and_eq_true, decide_eq_true_eq] at hl
    exact dispatch_moves hl.1 unit trn h
  · exact .refl

end Sys2Proof.Machine

/-! PROOFS. Every step is a run of changes, concluded: the rows that are no link commands, and `exec`. -/

namespace Sys2Proof.Machine

namespace State

/-! ### The line side of the link (R158 to R171) -/

theorem dispatch_of_packet_moves {s : State} (hp : s.phase = .serving) (p : Packet) :
    Moves s (s.handPacket p) :=
  dispatch_moves hp p.unit p.trn (takePacket_acts p)

theorem keepByte_moves (s : State) (b : Byte) (st : RxState) : Moves s (s.keepByte b st) :=
  (Move.receive s (.inr rfl)).moves

theorem checkPacket_moves {s : State} (hp : s.phase = .serving) (b : Byte) :
    Moves s (s.checkPacket b) := by
  unfold checkPacket
  dsimp only
  split
  · exact .head s.dropPacket_move (dispatch_of_packet_moves (s := s.dropPacket) hp _)
  · exact s.dropPacket_move.moves.tail (.count _ (c := { s.counters with
      crc := satInc 65535 s.counters.crc }) fun ⟨h1, h2, h3⟩ => ⟨h1, satInc_le h2, h3⟩)

theorem takeByte_moves {s : State} (hp : s.phase = .serving) (b : Byte) : Moves s (s.takeByte b) := by
  unfold takeByte
  split
  · split
    · exact (Move.receive s (.inr rfl)).moves
    · exact .refl
  · split
    · split
      · exact s.endGap_moves
      · exact s.keepByte_moves b _
    · split <;> exact s.keepByte_moves b _
  · exact s.keepByte_moves b _
  · split
    · exact s.keepByte_moves b _
    · exact checkPacket_moves hp b

theorem receive_moves {s : State} (hp : s.phase = .serving) (b : Byte) : Moves s (s.receive b) :=
  .head (.untracked s) ((passGap_moves s.seeHigh).trans
    (takeByte_moves (s.seeHigh.passGap_keeps.2.2.2.2.1.trans hp) b))

theorem sendReply_moves {s : State} {k : Fin 16} {rest : List (Fin 16)} {run : Nat}
    (htx : s.tx.idles = true) (hq : s.replyQueue = k :: rest) (hrun : run = s.runCount ∨ run ≤ 4) :
    Moves s (s.sendReply k rest run) := by
  unfold sendReply
  split
  · rename_i r hr
    exact (Move.sendReply htx hq hr hrun).moves
  · rename_i hr
    refine (Move.skipReply hq ?_).moves
    cases h : s.slots[k] with
    | queued r => exact absurd h (hr r)
    | free => rfl
    | held _ _ => rfl
    | sending _ => rfl

theorem transmit_moves (s : State) : Moves s s.transmit := by
  unfold transmit
  split
  · rename_i hidle
    have htx : s.tx.idles = true := (Bool.and_eq_true_iff.1 hidle).1
    split
    · exact .refl
    · rename_i hq _
      exact sendReply_moves htx hq (.inl rfl)
    · rename_i n ns _ hn
      exact (Move.sendNotice (noticePacket n) htx hn).moves
    · rename_i hq hn
      split
      · exact sendReply_moves htx hq (.inr (by omega))
      · exact (Move.sendNotice _ htx hn).moves
  · exact .refl

theorem transmissionEnd_moves {s t : State} (h : execTransmissionEnd s = .next t) : Moves s t := by
  unfold execTransmissionEnd at h
  injection h with h
  subst h
  split
  · exact .refl
  · rename_i p htx
    exact (Move.endPacket (by rw [htx]; rfl)).moves
  · rename_i p htx
    exact (Move.endPacket (by rw [htx]; rfl)).moves
  · rename_i k p htx
    exact (Move.endReply htx).moves

/-! ### Requests (R37 to R41, R57, R59) -/

theorem accept_moves {s : State} {i : Fin 32} (hp : s.phase = .serving) (hi : s.entries[i] = none)
    (r : HostRequest) : Moves s (s.accept i r) := by
  unfold accept
  split
  · rename_i kind w _
    refine .tail ?_ (.offerFault _ _)
    exact (Move.untracked s).moves.tail (.deny (e := deniedEntry r s.accCounter) hp hi rfl rfl)
  · have hw : ∀ w, s.matchWindow r.addr = some w → s.windows[w].state = .enabled := by
      intro w hw
      have := List.find?_some hw
      rw [Bool.and_eq_true, decide_eq_true_eq] at this
      exact this.1
    dsimp only
    generalize s.matchWindow r.addr = m at hw
    have hqueue := Move.queue (e := queuedEntry r s.accCounter m
      (m.map fun w => s.windows[w].defn.mode)) hp hi rfl hw
    cases m with
    | none => exact hqueue.moves
    | some w => exact hqueue.moves

theorem acceptance_moves {s t : State} {r : HostRequest} (h : execAcceptance r s = .next t) :
    Moves s t := by
  unfold execAcceptance at h
  injection h with h
  subst h
  split
  · rename_i hp
    rw [Bool.and_eq_true, decide_eq_true_eq] at hp
    split
    · exact .refl
    · rename_i i hi
      refine (accept_moves hp.1 ?_ r).tail (.offer _)
      simpa using List.find?_some hi
  · exact .refl

theorem deliver_moves {s : State} {i : Fin 32} (ho : s.offered = some i) : Moves s (s.deliver i) := by
  unfold deliver
  dsimp only
  split
  · rename_i e he
    split
    · rename_i w hw
      unfold countOut
      dsimp only
      split
      · rename_i hd
        rw [Bool.and_eq_true, decide_eq_true_eq, decide_eq_true_eq] at hd
        refine endWindowCommand_moves .ok [] ?_
        have hlast := (Move.deliverLast ho he hw hd.1 hd.2).moves
        simpa only [setWindow, setEntry, get_set_self, set_set_self] using hlast
      · rename_i hd
        rw [Bool.and_eq_true, decide_eq_true_eq, decide_eq_true_eq] at hd
        exact (Move.deliverCounted ho he hw hd).moves
    · rename_i hw
      refine (Move.deliver ho fun e' he' => ?_).moves
      rw [he] at he'
      cases he'
      exact hw
  · rename_i he
    refine (Move.deliver ho fun e' he' => ?_).moves
    rw [he] at he'
    cases he'

theorem responseTaken_moves {s t : State} (h : execResponseTaken s = .next t) : Moves s t := by
  unfold execResponseTaken at h
  injection h with h
  subst h
  split
  · exact .refl
  · rename_i i hi
    exact (deliver_moves hi).tail (.offer _)

/-! ### Turns (R46, R64 to R78) -/

/-- A take draws one or two tags, from the head of those offered it. -/
theorem hostSubs_tags (e : Entry) (x : Option (Fin 16 × Window)) {tags : List (Fin 64)}
    (h : tags ≠ []) :
    ((hostSubs e x tags).map fun p => p.2.tag) <+: tags ∧ 1 ≤ (hostSubs e x tags).length
      ∧ (hostSubs e x tags).length ≤ 2 := by
  match tags, h with
  | t :: rest, _ =>
    unfold hostSubs
    dsimp only
    split
    · exact ⟨⟨_, rfl⟩, Nat.le_succ 1, le_rfl⟩
    · exact ⟨⟨_, rfl⟩, le_rfl, Nat.le_succ 1⟩

/-- A host turn granted has an entry at the head of the queue and tags enough (R65, R67). -/
theorem hostGrant_tags {s : State} (h : s.grant = some .host) {i : Fin 32} {e : Entry}
    (he : s.headEntry = some (i, e)) : s.freeTags.take (tagsNeeded e.action) ≠ [] := by
  have hready : s.hostReady = true := by
    by_contra hn
    rw [Bool.not_eq_true] at hn
    unfold grant at h
    rw [hn] at h
    split at h
    · cases h
    · rw [if_neg Bool.false_ne_true] at h
      split at h <;> cases h
  unfold hostReady at hready
  rw [he] at hready
  simp only [Bool.and_eq_true, decide_eq_true_eq] at hready
  have hpos : 1 ≤ tagsNeeded e.action := by
    unfold tagsNeeded
    split <;> decide
  intro hnil
  have := congrArg List.length hnil
  rw [List.length_take, List.length_nil] at this
  omega

theorem takeEntry_moves {s : State} {i : Fin 32} {e : Entry} (h : s.grant = some .host)
    (he : s.headEntry = some (i, e)) : Moves s (s.takeEntry i e) := by
  obtain ⟨hhead, hentry⟩ : s.intake.head? = some i ∧ s.entries[i] = some e := by
    obtain ⟨j, hj, hje⟩ := Option.bind_eq_some_iff.1 he
    obtain ⟨f, hf, hfe⟩ := Option.map_eq_some_iff.1 hje
    cases hfe
    exact ⟨hj, hf⟩
  have hq : s.intake = i :: s.intake.tail := by
    cases hi : s.intake with
    | nil => rw [hi] at hhead; cases hhead
    | cons j rest => rw [hi] at hhead; cases hhead; rfl
  have hfree := hostGrant_tags h he
  unfold takeEntry
  dsimp only
  refine .trans ?_ (handTaken_moves _ e _)
  generalize hx : s.takenWindow e = x
  obtain ⟨hpre, hlen⟩ := hostSubs_tags e x hfree
  generalize hs : hostSubs e x (s.freeTags.take (tagsNeeded e.action)) = subs at hpre hlen
  have hmap : (subs.map fun p => (p.2.tag, hostRecord i e p)).map Prod.fst =
      subs.map fun p => p.2.tag := by
    rw [List.map_map]
    rfl
  have hnodup : s.freeTags.Nodup := s.freeTags_sorted.imp ne_of_lt
  refine (Move.take (l := subs.map fun p => (p.2.tag, hostRecord i e p))
    (e' := takenEntry e x subs.length) hq hentry rfl rfl (List.length_map _).symm
    (by rwa [List.length_map]) ?_ fun p hp => ?_).moves.tail (.untracked _)
  · rw [hmap]
    exact hnodup.sublist (hpre.sublist.trans (List.take_sublist _ _))
  · obtain ⟨q, hq, rfl⟩ := List.mem_map.1 hp
    have hmem : q.2.tag ∈ s.freeTags :=
      (hpre.sublist.trans (List.take_sublist _ _)).subset (List.mem_map_of_mem hq)
    exact ⟨(s.mem_freeTags _).1 hmem, rfl, q.1, rfl⟩

theorem hostTurn_moves {s t : State} (h : execHostTurn s = .next t) : Moves s t := by
  unfold execHostTurn at h
  injection h with h
  subst h
  split
  · rename_i hg he
    exact takeEntry_moves hg he
  · exact .refl

theorem takeSweepTurn_moves {s : State} {c : Sweep} {t : Fin 64} (hc : s.sweep = some c)
    (ht : s.tags[t] = .free) (role : ReqKind) (addr : Word) (data : List WriteWord)
    (phase : SweepPhase) : Moves s (s.takeSweepTurn c role t addr data phase) := by
  have hdraw : Move s (s.setTag t (.inUse (sweepRecord c role addr))) := .drawSweep ht rfl rfl
  have hsweep : (some { c with tag := some t, phase := phase, block := none }).map Sweep.window =
      s.sweep.map Sweep.window := by
    rw [hc]
    rfl
  exact (hdraw.moves.tail (.advance _ hsweep)).tail (.untracked _)

theorem sweepReadTurn_moves {s t : State} (h : execSweepReadTurn s = .next t) : Moves s t := by
  unfold execSweepReadTurn at h
  injection h with h
  subst h
  split
  · rename_i u _ _ hc hu
    split
    · exact takeSweepTurn_moves hc ((s.mem_freeTags u).1 (by rw [hu]; exact List.mem_cons_self)) ..
    · exact .refl
  · exact .refl

theorem sweepWriteTurn_moves {s t : State} (h : execSweepWriteTurn s = .next t) : Moves s t := by
  unfold execSweepWriteTurn at h
  injection h with h
  subst h
  split
  · rename_i u _ _ hc hu
    split
    · exact takeSweepTurn_moves hc ((s.mem_freeTags u).1 (by rw [hu]; exact List.mem_cons_self)) ..
    · exact .refl
  · exact .refl

/-! ### The D port (R47 to R53) -/

theorem issueTag_moves (s : State) (t : Fin 64) : Moves s (s.issueTag t) := by
  unfold issueTag
  split
  · rename_i r hr
    refine (Move.issue hr fun d hd => ?_).moves
    split at hd
    · cases hd
    · rename_i hl
      cases hd
      have : s.limit.toNat ≠ 0 := fun h => hl (BitVec.eq_of_toNat_eq h)
      omega
  · exact .refl

theorem Sweep.issued_window (c : Sweep) (t : Fin 64) : (c.issued t).window = c.window := by
  unfold Sweep.issued
  split
  · split <;> rfl
  · rfl

theorem issueTag_sweep (s : State) (t : Fin 64) : (s.issueTag t).sweep = s.sweep := by
  unfold issueTag
  split <;> rfl

theorem subRequestIssue_moves {s t : State} (h : execSubRequestIssue s = .next t) : Moves s t := by
  unfold execSubRequestIssue at h
  injection h with h
  subst h
  split
  · exact .refl
  · split
    · exact (Move.untracked s).moves
    · rename_i q rest _
      have hsweep : (s.sweep.map (·.issued q.tag)).map Sweep.window =
          (s.issueTag q.tag).sweep.map Sweep.window := by
        rw [issueTag_sweep, Option.map_map]
        exact congrArg (Option.map · s.sweep) (funext fun c => Sweep.issued_window c q.tag)
      exact ((s.issueTag_moves q.tag).tail (.advance _ hsweep)).tail (.untracked _)

theorem memoryResponse_moves {s t : State} {tag : Fin 64} {st : MemStatus} {ws : List Word}
    (h : execMemoryResponse tag st ws s = .next t) : Moves s t := by
  unfold execMemoryResponse at h
  injection h with h
  subst h
  split
  · exact .refl
  · split
    · exact (Move.offerFault s _).moves
    · rename_i r hr
      refine .tail (.single (.settle rfl fun i hi => ?_)) (.offerFault _ _)
      simp [ownedBy, hr] at hi
    · rename_i r hr
      split
      · exact (answerTag_moves hr st ws).tail (.offer _)
      · exact (Move.offerFault s _).moves

/-! ### Start-up (R180 to R182) -/

theorem resetEnd_moves {s t : State} {rate : LinkRate} (h : execResetEnd rate s = .next t) :
    Moves s t := by
  unfold execResetEnd at h
  injection h with h
  subst h
  split
  · rename_i hp
    exact (Move.enter s (p := .reading) (.inr (by rw [hp]; decide))).moves.tail (.untracked _)
  · exact .refl

theorem opening_moves {s t : State} (h : execOpening s = .next t) : Moves s t := by
  unfold execOpening at h
  injection h with h
  subst h
  split
  · exact (((Move.untracked s).moves.tail (dropPacket_move s.timeLine)).tail
      (.enter _ (.inl rfl))).trans (transmit_moves _)
  · exact .refl

theorem load_row_moves {s t : State} {lostA lostB : Bool} (h : execLoad lostA lostB s = .next t) :
    Moves s t := by
  unfold execLoad at h
  injection h with h
  subst h
  split
  · rename_i hp
    exact load_moves hp lostA lostB
  · exact .refl

theorem commitEnd_moves {s t : State} {o : CommitOutcome} (h : execCommitEnd o s = .next t) :
    Moves s t := by
  unfold execCommitEnd at h
  injection h with h
  subst h
  split
  · exact .refl
  · exact s.failCommitBody_moves _ _
  · rename_i hp
    exact endCommitMarker_moves hp _

/-! ### The step of the base (R143) -/

theorem timebaseIncrement_moves {s t : State} {early late : List StepEvent}
    (h : execTimebaseIncrement s early late = .next t) : Moves s.stepBase t := by
  unfold execTimebaseIncrement at h
  injection h with h
  subst h
  exact (((foldl_moves takeEvent_moves early _).trans (countEvent_moves _ .internal)).trans
    (foldl_moves takeEvent_moves late _)).trans (passDeadlines_moves _)

end State

open State

/-- Every command but the step of the base is a run of changes. -/
theorem exec_moves {c : Instr} {s t : State} (hc : ∀ early late, c ≠ .timebaseIncrement early late)
    (h : exec c s = .next t) : Moves s t := by
  have command {unit trn : Byte} {take : Ctx → State → State} (ha : Acts take)
      (h : (.next (s.command unit trn take) : Result) = .next t) : Moves s t := by
    injection h with h
    exact h ▸ command_moves s unit trn ha
  cases c with
  | hardwareReset m => injection h with h; exact h ▸ (Move.reset s m).moves
  | resetEnd rate => exact resetEnd_moves h
  | load lostA lostB => exact load_row_moves h
  | opening => exact opening_moves h
  | acceptance req => exact acceptance_moves h
  | responseTaken => exact responseTaken_moves h
  | hostTurn => exact hostTurn_moves h
  | sweepReadTurn => exact sweepReadTurn_moves h
  | sweepWriteTurn => exact sweepWriteTurn_moves h
  | subRequestIssue => exact subRequestIssue_moves h
  | memoryResponse tag status words => exact memoryResponse_moves h
  | expiry tag => injection h with h; exact h ▸ s.passTag_moves tag
  | captureDeadline w => injection h with h; exact h ▸ s.passCapture_moves w
  | strobeEdge edge =>
    injection h with h
    subst h
    split
    · exact s.countEvent_moves .strobe
    · exact .refl
  | timebaseIncrement early late => exact absurd rfl (hc early late)
  | linkByteReceived b =>
    injection h with h
    subst h
    split
    · rename_i hl
      rw [linkReceives, Bool.and_eq_true, decide_eq_true_eq] at hl
      exact receive_moves hl.1 b
    · exact .refl
  | interByteGap => injection h with h; exact h ▸ s.passGap_moves
  | linkBreak => injection h with h; exact h ▸ s.detectBreak_moves
  | breakEnd =>
    injection h with h
    subst h
    split
    · exact (Move.untracked s).moves
    · exact .refl
  | transmitterChoice => injection h with h; exact h ▸ s.transmit_moves
  | transmissionEnd => exact transmissionEnd_moves h
  | undefinedCommand unit code trn payload => exact command (takePacket_acts _) h
  | getIdentity trn => exact command takeGetIdentity_acts h
  | getStatus trn => exact command takeGetStatus_acts h
  | setLimits trn limit => exact command (takeSetLimits_acts limit) h
  | getLinkCounters trn flags => exact command (takeGetLinkCounters_acts flags) h
  | define w trn base pages mode format count flags shadow =>
    exact command (takeDefine_acts w base pages mode format count flags shadow) h
  | setChannel w trn channel gain offset low high => exact command (takeSetChannel_acts w channel _) h
  | enable w trn => exact command (takeEnable_acts w) h
  | disable w trn => exact command (takeDisable_acts w) h
  | query w trn channel => exact command (takeQuery_acts w channel) h
  | sweep w trn start count => exact command (takeSweep_acts w start count) h
  | zeroCapture w trn channel n limit => exact command (takeZeroCapture_acts w channel n limit) h
  | abort w trn => exact command (takeAbort_acts w) h
  | readStats w trn slot flags => exact command (takeReadStats_acts w slot flags) h
  | monSet trn monitor window channel level hysteresis direction mode =>
    exact command (takeMonSet_acts monitor window channel level hysteresis direction mode) h
  | monArm trn monitor => exact command (takeMonArm_acts monitor) h
  | monRelease trn monitor => exact command (takeMonRelease_acts monitor) h
  | monQuery trn monitor => exact command (takeMonQuery_acts monitor) h
  | tbSet trn source edge preset => exact command (takeTbSet_acts source edge preset) h
  | tbRead trn => exact command takeTbRead_acts h
  | faultPeek trn => exact command takeFaultPeek_acts h
  | faultPop trn => exact command takeFaultPop_acts h
  | faultClear trn => exact command takeFaultClear_acts h
  | bootCommit trn => exact command takeBootCommit_acts h
  | commitEnd outcome => exact commitEnd_moves h
  | bootReload trn lostA lostB => exact command (takeBootReload_acts lostA lostB) h
  | bootQuery trn => exact command takeBootQuery_acts h

/-- A predicate that the queue of commands and the step of the base leave alone is kept by every step
when every change keeps it. -/
theorem step_keeps {P : State → Prop} (hq : ∀ s rest, P s → P { s with pending := rest })
    (hb : ∀ s, P s → P s.stepBase) (hP : ∀ s t, Move s t → P s → P t) {s t : State} (hs : P s)
    (h : step s = .next t) : P t := by
  unfold step at h
  split at h
  · injection h with h
    exact h ▸ hs
  · rename_i c rest _
    by_cases hc : ∃ early late, c = .timebaseIncrement early late
    · obtain ⟨early, late, rfl⟩ := hc
      exact (timebaseIncrement_moves h).keep hP (hb _ (hq s rest hs))
    · exact (exec_moves (fun early late he => hc ⟨early, late, he⟩) h).keep hP (hq s rest hs)

end Sys2Proof.Machine

/-! PROOFS. The fault list and ALERT (chapter 9): every change keeps them sound, and so every step. -/

namespace Sys2Proof.Machine

/-- R149 keeps the list within its room and its counts within their range, and R155 drives ALERT. -/
theorem faultListSound_offerFault {s : State} (f : FaultInfo) (h : FaultListSound s) :
    FaultListSound (s.offerFault f) := by
  obtain ⟨hlen, halert, hrep⟩ := h
  obtain ⟨init, r, hs, _, heq⟩ | ⟨_, hroom, heq⟩ | ⟨_, _, heq⟩ := s.offerFault_cases f
  · rw [heq]
    rw [hs] at hlen halert hrep
    have hr := hrep r (by simp)
    refine ⟨by simpa using hlen, by rw [halert]; cases init <;> rfl, fun q hq => ?_⟩
    rcases List.mem_append.1 hq with hq | hq
    · exact hrep q (List.mem_append_left _ hq)
    · rw [List.mem_singleton.1 hq]
      exact ⟨hr.1.trans (le_satInc 255 r.repeats), satInc_le hr.2⟩
  · obtain ⟨ns, l, happend⟩ := s.appendFault_eq f
    rw [heq, happend]
    refine ⟨by rw [List.length_append]; exact hroom, by simp, fun q hq => ?_⟩
    rcases List.mem_append.1 hq with hq | hq
    · exact hrep q hq
    · rw [List.mem_singleton.1 hq]
      exact ⟨le_rfl, Nat.le_of_ble_eq_true rfl⟩
  · rw [heq]
    exact ⟨hlen, halert, hrep⟩

/-- R153 and R155. -/
theorem faultListSound_pop {s : State} {r : FaultRecord} {rest : List FaultRecord}
    (hs : s.faults = r :: rest) (h : FaultListSound s) : FaultListSound { s with
      faults := rest, alert := if rest.isEmpty then false else s.alert } := by
  obtain ⟨hlen, halert, hrep⟩ := h
  rw [hs] at hlen halert hrep
  refine ⟨(Nat.le_succ _).trans hlen, ?_, fun q hq => hrep q (List.mem_cons_of_mem r hq)⟩
  cases rest with
  | nil => rfl
  | cons q rest => exact halert

/-- R154 and R155. -/
theorem faultListSound_clear {s : State} (h : FaultListSound s) : FaultListSound { s with
    faults := [], overflow := false, alert := if s.faults.isEmpty then s.alert else false } := by
  obtain ⟨_, halert, _⟩ := h
  refine ⟨Nat.zero_le 8, ?_, nofun⟩
  dsimp only
  split
  · rename_i he
    rw [halert, he]
    rfl
  · rfl

theorem Move.keeps_faults {s t : State} (m : Move s t) (h : FaultListSound s) : FaultListSound t := by
  cases m with
  | offerFault f => exact faultListSound_offerFault f h
  | popFault hs => exact faultListSound_pop hs h
  | clearFaults => exact faultListSound_clear h
  | offerNotice b =>
    obtain ⟨_, _, heq⟩ := s.offerNotice_frame b
    exact heq ▸ h
  | complete trn status payload =>
    obtain ⟨_, _, _, heq⟩ := s.completeDeferred_frame trn status payload
    exact heq ▸ h
  | offer =>
    obtain ⟨_, heq⟩ := s.offerResponse_frame
    exact heq ▸ h
  | @take i rest e e' l =>
    obtain ⟨_, heq⟩ := s.drawTags_frame l
    rw [heq]
    exact h
  | reset m => exact ⟨Nat.zero_le 8, rfl, nofun⟩
  | write id =>
    rw [State.setCopy_eq]
    exact h
  | untracked | count | reply | register | receive | lineBreak | sendReply | skipReply | sendNotice
  | endReply | endPacket | mark | define | enable | disable | drain | startSweep | advance | stopSweep
  | startCapture | sample | stopCapture | deny | queue | deliver | deliverCounted | deliverLast
  | drawSweep | issue | answer | settle | fill | enter | load | status | commit => exact h

/-- Settles O54: every change keeps the fault list and ALERT sound. -/
theorem faultListStaysSound : Obligations.FaultListStaysSound :=
  fun _ _ hs h => step_keeps (fun _ _ h => h) (fun _ h => h) (fun _ _ m => m.keeps_faults) hs h

end Sys2Proof.Machine

/-! PROOFS. The link's slots, queues and counters (chapter 10): every change keeps them sound, and so
every step. -/

namespace Sys2Proof.Machine

/-- The slots agree with the reply queue, the slot of the transmitter and the deferred-command list
(R164, R166, R169): the part of `LinkSound` that speaks of slots. -/
structure SlotsAgree (slots : Vector Slot 16) (queue : List (Fin 16)) (tx : Option (Fin 16))
    (deferred : List DeferredEntry) : Prop where
  queue_nodup : queue.Nodup
  queued_iff : ∀ k : Fin 16, slots[k].isQueued = true ↔ k ∈ queue
  sending_iff : ∀ k : Fin 16, slots[k].isSending = true ↔ tx = some k
  trn_nodup : (deferred.map DeferredEntry.trn).Nodup
  slot_nodup : (deferred.map DeferredEntry.slot).Nodup
  held : ∀ d ∈ deferred, slots[d.slot].heldFor = some (d.trn, d.unit)
  listed : ∀ k : Fin 16, slots[k].heldFor.isSome = true → ∃ d ∈ deferred, d.slot = k

theorem linkSound_iff (s : State) : LinkSound s ↔
    SlotsAgree s.slots s.replyQueue s.tx.slot s.deferred
      ∧ (s.notices.length ≤ 8 ∧ s.lost ≤ 255 ∧ s.runCount ≤ 4) ∧ CountersSound s.counters := by
  constructor
  · rintro ⟨h1, h2, h3, h4, h5, h6, h7, h8, h9, h10, h⟩
    exact ⟨⟨h1, h2, h3, h4, h5, h6, h7⟩, ⟨h8, h9, h10⟩, h⟩
  · rintro ⟨⟨h1, h2, h3, h4, h5, h6, h7⟩, ⟨h8, h9, h10⟩, h⟩
    exact ⟨h1, h2, h3, h4, h5, h6, h7, h8, h9, h10, h⟩

theorem Slot.eq_sending_of_isSending {x : Slot} (h : x.isSending = true) : ∃ r, x = .sending r := by
  cases x with
  | sending r => exact ⟨r, rfl⟩
  | free | held _ _ | queued _ => cases h

theorem Slot.eq_held_of_heldFor {x : Slot} {trn unit : Byte} (h : x.heldFor = some (trn, unit)) :
    x = .held trn unit := by
  cases x with
  | held a b => cases h; rfl
  | free | queued _ | sending _ => cases h

namespace SlotsAgree

variable {slots : Vector Slot 16} {queue : List (Fin 16)} {tx : Option (Fin 16)}
  {deferred : List DeferredEntry} (h : SlotsAgree slots queue tx deferred)
include h

/-- A slot that is not HELD is no deferred command's. -/
theorem slot_ne_of_not_held {k : Fin 16} (hk : slots[k].heldFor = none) {d : DeferredEntry}
    (hd : d ∈ deferred) : k ≠ d.slot := by
  rintro rfl
  rw [h.held d hd] at hk
  cases hk

/-- A slot that is not QUEUED is not in the reply queue. -/
theorem not_mem_queue {k : Fin 16} (hk : slots[k].isQueued = false) : k ∉ queue := by
  rw [← h.queued_iff k, hk]
  exact Bool.false_ne_true

/-- A slot that is neither QUEUED, SENDING nor HELD gets a reply. -/
theorem reply {k : Fin 16} (hk : slots[k] = .free) (r : Reply) :
    SlotsAgree (slots.set k (.queued r)) (queue ++ [k]) tx deferred where
  queue_nodup := by
    have hq := h.not_mem_queue (k := k) (by rw [hk]; rfl)
    simpa [List.nodup_append] using ⟨h.queue_nodup, fun a ha hak => hq (hak ▸ ha)⟩
  queued_iff j := by
    rw [get_set, List.mem_append, List.mem_singleton, ← h.queued_iff j]
    split
    · rename_i hj
      exact ⟨fun _ => .inr hj.symm, fun _ => rfl⟩
    · rename_i hj
      exact ⟨.inl, fun hm => hm.resolve_right (Ne.symm hj)⟩
  sending_iff j := by
    rw [get_set, ← h.sending_iff j]
    split
    · rename_i hj
      rw [← hj, hk]
      rfl
    · rfl
  trn_nodup := h.trn_nodup
  slot_nodup := h.slot_nodup
  held d hd := by
    rw [get_set_ne _ _ (h.slot_ne_of_not_held (by rw [hk]; rfl) hd), h.held d hd]
  listed j hj := by
    rw [get_set] at hj
    split at hj
    · cases hj
    · exact h.listed j hj

/-- A free slot is HELD for a deferred command whose TRN is not pending. -/
theorem register {k : Fin 16} (hk : slots[k] = .free) {trn : Byte}
    (ht : ∀ d ∈ deferred, d.trn ≠ trn) (unit code : Byte) :
    SlotsAgree (slots.set k (.held trn unit)) queue tx (deferred ++ [⟨trn, unit, code, k⟩]) where
  queue_nodup := h.queue_nodup
  queued_iff j := by
    rw [get_set, ← h.queued_iff j]
    split
    · rename_i hj
      rw [← hj, hk]
      rfl
    · rfl
  sending_iff j := by
    rw [get_set, ← h.sending_iff j]
    split
    · rename_i hj
      rw [← hj, hk]
      rfl
    · rfl
  trn_nodup := by
    rw [List.map_append, List.nodup_append]
    refine ⟨h.trn_nodup, List.nodup_singleton _, fun a ha b hb => ?_⟩
    obtain ⟨d, hd, rfl⟩ := List.mem_map.1 ha
    rw [List.mem_singleton.1 hb]
    exact ht d hd
  slot_nodup := by
    rw [List.map_append, List.nodup_append]
    refine ⟨h.slot_nodup, List.nodup_singleton _, fun a ha b hb => ?_⟩
    obtain ⟨d, hd, rfl⟩ := List.mem_map.1 ha
    rw [List.mem_singleton.1 hb]
    exact (h.slot_ne_of_not_held (by rw [hk]; rfl) hd).symm
  held d hd := by
    rcases List.mem_append.1 hd with hd | hd
    · rw [get_set_ne _ _ (h.slot_ne_of_not_held (by rw [hk]; rfl) hd), h.held d hd]
    · rw [List.mem_singleton.1 hd, get_set_self]
      rfl
  listed j hj := by
    rw [get_set] at hj
    split at hj
    · rename_i hkj
      exact ⟨_, List.mem_append_right _ (List.mem_singleton_self _), hkj⟩
    · obtain ⟨d, hd, hdj⟩ := h.listed j hj
      exact ⟨d, List.mem_append_left _ hd, hdj⟩

/-- The deferred commands of one TRN, or of one slot, are one. -/
theorem eq_of_slot {c d : DeferredEntry} (hc : c ∈ deferred) (hd : d ∈ deferred)
    (he : c.slot = d.slot) : c = d :=
  List.inj_on_of_nodup_map h.slot_nodup hc hd he

/-- A deferred command is answered in its slot. -/
theorem complete {d : DeferredEntry} (hd : d ∈ deferred) (r : Reply) :
    SlotsAgree (slots.set d.slot (.queued r)) (queue ++ [d.slot]) tx
      (deferred.filter (·.trn ≠ d.trn)) where
  queue_nodup := by
    have hq : d.slot ∉ queue := by
      refine h.not_mem_queue ?_
      rw [Slot.eq_held_of_heldFor (h.held d hd)]
      rfl
    simpa [List.nodup_append] using ⟨h.queue_nodup, fun a ha hak => hq (hak ▸ ha)⟩
  queued_iff j := by
    rw [get_set, List.mem_append, List.mem_singleton, ← h.queued_iff j]
    split
    · rename_i hj
      exact ⟨fun _ => .inr hj.symm, fun _ => rfl⟩
    · rename_i hj
      exact ⟨.inl, fun hm => hm.resolve_right (Ne.symm hj)⟩
  sending_iff j := by
    rw [get_set, ← h.sending_iff j]
    split
    · rename_i hj
      rw [← hj, Slot.eq_held_of_heldFor (h.held d hd)]
      rfl
    · rfl
  trn_nodup := h.trn_nodup.sublist (List.filter_sublist.map _)
  slot_nodup := h.slot_nodup.sublist (List.filter_sublist.map _)
  held c hc := by
    obtain ⟨hc, hne⟩ := List.mem_filter.1 hc
    have hslot : d.slot ≠ c.slot := by
      intro he
      rw [h.eq_of_slot hc hd he.symm] at hne
      simp at hne
    rw [get_set_ne _ _ hslot, h.held c hc]
  listed j hj := by
    rw [get_set] at hj
    split at hj
    · cases hj
    · rename_i hne
      obtain ⟨c, hc, rfl⟩ := h.listed j hj
      refine ⟨c, List.mem_filter.2 ⟨hc, ?_⟩, rfl⟩
      rw [decide_eq_true_eq]
      intro he
      exact hne (congrArg DeferredEntry.slot (List.inj_on_of_nodup_map h.trn_nodup hd hc he.symm))

/-- A BREAK frees the slots that are QUEUED or SENDING. -/
theorem lineBreak : SlotsAgree (slots.map Slot.afterBreak) [] none deferred where
  queue_nodup := List.nodup_nil
  queued_iff j := by
    rw [Fin.getElem_fin, Vector.getElem_map]
    cases slots[j.val] <;> simp [Slot.afterBreak, Slot.isQueued]
  sending_iff j := by
    rw [Fin.getElem_fin, Vector.getElem_map]
    cases slots[j.val] <;> simp [Slot.afterBreak, Slot.isSending]
  trn_nodup := h.trn_nodup
  slot_nodup := h.slot_nodup
  held d hd := by
    have hheld := h.held d hd
    rw [Fin.getElem_fin] at hheld ⊢
    rw [Vector.getElem_map]
    cases hs : slots[d.slot.val] <;> simp_all [Slot.afterBreak, Slot.heldFor]
  listed j hj := by
    refine h.listed j ?_
    rw [Fin.getElem_fin, Vector.getElem_map] at hj
    rw [Fin.getElem_fin]
    cases hs : slots[j.val] <;> simp_all [Slot.afterBreak, Slot.heldFor]

/-- The head of the reply queue is sent by an idle transmitter. -/
theorem send {k : Fin 16} {rest : List (Fin 16)} {r : Reply} (htx : tx = none)
    (hq : queue = k :: rest) (hk : slots[k] = .queued r) :
    SlotsAgree (slots.set k (.sending r)) rest (some k) deferred where
  queue_nodup := (hq ▸ h.queue_nodup).of_cons
  queued_iff j := by
    have hnd : k ∉ rest := (List.nodup_cons.1 (hq ▸ h.queue_nodup)).1
    have hj := h.queued_iff j
    rw [hq, List.mem_cons] at hj
    rw [get_set]
    split
    · rename_i hkj
      exact ⟨fun hf => (by cases hf), fun hm => absurd (hkj ▸ hm) hnd⟩
    · rename_i hkj
      rw [hj]
      exact ⟨fun hm => hm.resolve_left (Ne.symm hkj), .inr⟩
  sending_iff j := by
    have hj := h.sending_iff j
    rw [htx] at hj
    rw [get_set]
    split
    · rename_i hkj
      exact ⟨fun _ => congrArg some hkj, fun _ => rfl⟩
    · rename_i hkj
      rw [hj]
      exact ⟨fun hf => (by cases hf), fun hf => absurd (Option.some.inj hf) hkj⟩
  trn_nodup := h.trn_nodup
  slot_nodup := h.slot_nodup
  held d hd := by
    rw [get_set_ne _ _ (h.slot_ne_of_not_held (by rw [hk]; rfl) hd), h.held d hd]
  listed j hj := by
    rw [get_set] at hj
    split at hj
    · cases hj
    · exact h.listed j hj

/-- The slot of a reply that has been sent is free. -/
theorem endReply {k : Fin 16} (htx : tx = some k) :
    SlotsAgree (slots.set k .free) queue none deferred := by
  have hk : slots[k].isSending = true := (h.sending_iff k).2 htx
  obtain ⟨r, hr⟩ := Slot.eq_sending_of_isSending hk
  exact {
    queue_nodup := h.queue_nodup
    queued_iff := fun j => by
      rw [get_set, ← h.queued_iff j]
      split
      · rename_i hj
        rw [← hj, hr]
        rfl
      · rfl
    sending_iff := fun j => by
      have hj := h.sending_iff j
      rw [get_set]
      split
      · exact ⟨fun hf => (by cases hf), fun hf => (by cases hf)⟩
      · rename_i hkj
        rw [hj, htx]
        exact ⟨fun hf => absurd (Option.some.inj hf) hkj, fun hf => (by cases hf)⟩
    trn_nodup := h.trn_nodup
    slot_nodup := h.slot_nodup
    held := fun d hd => by
      rw [get_set_ne _ _ (h.slot_ne_of_not_held (by rw [hr]; rfl) hd), h.held d hd]
    listed := fun j hj => by
      rw [get_set] at hj
      split at hj
      · cases hj
      · exact h.listed j hj }

end SlotsAgree

theorem Transmitter.slot_of_idles {x : Transmitter} (h : x.idles = true) : x.slot = none := by
  cases x with
  | idle => rfl
  | cutOff p => rfl
  | sending k p => cases h

theorem Transmitter.cut_slot (x : Transmitter) : x.cut.slot = none := by
  cases x <;> rfl

/-- R168 keeps the queue within its room and the lost count within its range. -/
theorem linkSound_offerNotice {s : State} (b : NoticeBody) (h : LinkSound s) :
    LinkSound (s.offerNotice b) := by
  rw [linkSound_iff] at h ⊢
  obtain ⟨hs, ⟨hn, hl, hr⟩, hc⟩ := h
  obtain ⟨_, hroom, heq⟩ | ⟨_, heq⟩ := s.offerNotice_cases b
  · rw [heq]
    exact ⟨hs, ⟨by rw [List.length_append]; exact hroom, Nat.zero_le _, hr⟩, hc⟩
  · rw [heq]
    exact ⟨hs, ⟨hn, satInc_le hl, hr⟩, hc⟩

theorem linkSound_offerFault {s : State} (f : FaultInfo) (h : LinkSound s) :
    LinkSound (s.offerFault f) := by
  obtain ⟨_, _, _, _, heq⟩ | ⟨_, _, heq⟩ | ⟨_, _, heq⟩ := s.offerFault_cases f
  · exact heq ▸ h
  · rw [heq]
    exact linkSound_offerNotice (s := { s with
      faults := s.faults ++ [⟨f, s.tbValue, 1⟩], alert := true }) _ h
  · exact heq ▸ h

theorem linkSound_complete {s : State} (trn : Byte) (status : Status) (payload : List Byte)
    (h : LinkSound s) : LinkSound (s.completeDeferred trn status payload) := by
  cases hd : s.deferred.find? (·.trn = trn) with
  | none => rwa [State.completeDeferred_of_none hd]
  | some d =>
    rw [State.completeDeferred_of_find hd]
    rw [linkSound_iff] at h ⊢
    exact ⟨h.1.complete (List.mem_of_find?_eq_some hd) _, h.2⟩

theorem linkSound_reset (s : State) (m : Bool) : LinkSound (s.hardwareReset m) := by
  rw [linkSound_iff]
  refine ⟨⟨List.nodup_nil, fun k => ?_, fun k => ?_, List.nodup_nil, List.nodup_nil, nofun,
    fun k hk => ?_⟩, ⟨Nat.zero_le _, Nat.zero_le _, Nat.zero_le _⟩,
    ⟨Nat.zero_le _, Nat.zero_le _, Nat.zero_le _, Nat.zero_le _, Nat.zero_le _⟩⟩
  · simp [State.hardwareReset, State.reset, Slot.isQueued]
  · simp [State.hardwareReset, State.reset, Slot.isSending, Transmitter.slot]
  · simp [State.hardwareReset, State.reset, Slot.heldFor] at hk

theorem Move.keeps_link {s t : State} (m : Move s t) (h : LinkSound s) : LinkSound t := by
  cases m with
  | offerFault f => exact linkSound_offerFault f h
  | offerNotice b => exact linkSound_offerNotice b h
  | count hc =>
    rw [linkSound_iff] at h ⊢
    exact ⟨h.1, h.2.1, hc h.2.2⟩
  | reply unit trn status payload hk =>
    rw [linkSound_iff] at h ⊢
    exact ⟨h.1.reply hk _, h.2⟩
  | register unit code hk ht =>
    rw [linkSound_iff] at h ⊢
    refine ⟨h.1.register hk ?_ unit code, h.2⟩
    simpa [State.trnPending] using ht
  | complete trn status payload => exact linkSound_complete trn status payload h
  | lineBreak =>
    rw [linkSound_iff] at h ⊢
    refine ⟨?_, ⟨Nat.zero_le _, Nat.zero_le _, Nat.zero_le _⟩, h.2.2⟩
    rw [Transmitter.cut_slot]
    exact h.1.lineBreak
  | sendReply htx hq hr hrun =>
    rw [linkSound_iff] at h ⊢
    obtain ⟨hs, ⟨hn, hl, hr4⟩, hc⟩ := h
    refine ⟨hs.send (Transmitter.slot_of_idles htx) hq hr, ⟨hn, hl, ?_⟩, hc⟩
    rcases hrun with rfl | hrun
    · exact hr4
    · exact hrun
  | @skipReply k rest hq hr =>
    have hmem := ((linkSound_iff s).1 h).1.not_mem_queue hr
    exact absurd (hq ▸ List.mem_cons_self) hmem
  | sendNotice p htx hn =>
    rw [linkSound_iff] at h ⊢
    obtain ⟨hs, ⟨hlen, hl, _⟩, hc⟩ := h
    rw [Transmitter.slot_of_idles htx] at hs
    rw [hn] at hlen
    exact ⟨hs, ⟨(Nat.le_succ _).trans hlen, hl, Nat.zero_le _⟩, hc⟩
  | endReply htx =>
    rw [linkSound_iff] at h ⊢
    exact ⟨h.1.endReply (by rw [htx]; rfl), h.2⟩
  | endPacket htx =>
    rw [linkSound_iff] at h ⊢
    rw [htx] at h
    exact h
  | offer =>
    obtain ⟨_, heq⟩ := s.offerResponse_frame
    exact heq ▸ h
  | @take i rest e e' l =>
    obtain ⟨_, heq⟩ := s.drawTags_frame l
    rw [heq]
    exact h
  | reset m => exact linkSound_reset s m
  | write id =>
    rw [State.setCopy_eq]
    exact h
  | untracked | popFault | clearFaults | receive | mark | define | enable | disable | drain
  | startSweep | advance | stopSweep | startCapture | sample | stopCapture | deny | queue | deliver
  | deliverCounted | deliverLast | drawSweep | issue | answer | settle | fill | enter | load | status
  | commit => exact h

/-- Settles O55: every change keeps the slots, queues and counters sound. -/
theorem linkStaysSound : Obligations.LinkStaysSound :=
  fun _ _ hs h => step_keeps (fun _ _ h => h) (fun _ h => h) (fun _ _ m => m.keeps_link) hs h

end Sys2Proof.Machine

/-! PROOFS. The window lifecycle (chapter 1): every change keeps it sound, and so every step. -/

namespace Sys2Proof.Machine

/-- The lifecycle of one window: `swept` and `capturing` say that the sweep context and a capture context
are its own (R3, R11, R111, R131). -/
structure WindowSound (x : Window) (swept capturing : Bool) : Prop where
  disabled : x.state = .disabled → x.activity = .idle ∧ x.deferred = none
  draining : x.state = .draining → x.activity = .idle ∧ x.deferred.map (·.kind) = some .disable
    ∧ 1 ≤ x.inflight
  enabled : x.state = .enabled → x.deferred.map (·.kind) =
    match x.activity with
    | .idle => none
    | .sweeping => some .sweep
    | .zeroing => some .zero
  sweeping : x.activity = .sweeping ↔ swept = true
  zeroing : x.activity = .zeroing ↔ capturing = true

theorem lifecycleSound_iff (s : State) : LifecycleSound s ↔
    (∀ w : Fin 16, WindowSound s.windows[w] (s.sweepsWindow w) s.captures[w].isSome)
      ∧ (s.phase ≠ .serving → s.sweep = none) := by
  constructor
  · rintro ⟨h, hp⟩
    refine ⟨fun w => ?_, hp⟩
    obtain ⟨h1, h2, h3, h4, h5⟩ := h w
    exact ⟨h1, h2, h3, h4, h5⟩
  · rintro ⟨h, hp⟩
    exact ⟨fun w => ⟨(h w).disabled, (h w).draining, (h w).enabled, (h w).sweeping, (h w).zeroing⟩, hp⟩

namespace WindowSound

variable {x y : Window} {swept capturing : Bool} (h : WindowSound x swept capturing)
include h

/-- What the lifecycle speaks of stays, and so the window stays sound. -/
theorem of_eq (hs : y.state = x.state) (ha : y.activity = x.activity) (hd : y.deferred = x.deferred)
    (hn : y.inflight = x.inflight) : WindowSound y swept capturing := by
  obtain ⟨h1, h2, h3, h4, h5⟩ := h
  rw [← hs, ← ha, ← hd] at h1 h3
  rw [← hs, ← ha, ← hd, ← hn] at h2
  rw [← ha] at h4 h5
  exact ⟨h1, h2, h3, h4, h5⟩

/-- A window in a long operation is ENABLED. -/
theorem state_of_busy (ha : x.activity ≠ .idle) : x.state = .enabled := by
  cases hs : x.state with
  | disabled => exact absurd (h.disabled hs).1 ha
  | draining => exact absurd (h.draining hs).1 ha
  | enabled => rfl

/-- An IDLE window has neither a sweep nor a capture. -/
theorem of_idle (ha : x.activity = .idle) : swept = false ∧ capturing = false := by
  have hs := h.sweeping
  have hz := h.zeroing
  rw [ha] at hs hz
  exact ⟨Bool.eq_false_iff.2 fun he => (nomatch hs.2 he), Bool.eq_false_iff.2 fun he => (nomatch hz.2 he)⟩

/-- A long operation ends: the window is ENABLED and IDLE, without a deferred command. -/
theorem stop (ha : x.activity ≠ .idle) (hx : y.state = x.state) (hy : y.activity = .idle)
    (hd : y.deferred = none) : WindowSound y false false := by
  have hs := h.state_of_busy ha
  refine ⟨fun hn => ?_, fun hn => ?_, fun _ => ?_, ?_, ?_⟩
  · rw [hx, hs] at hn; cases hn
  · rw [hx, hs] at hn; cases hn
  · rw [hy, hd]; rfl
  · rw [hy]; simp
  · rw [hy]; simp

end WindowSound

/-- A window out of service, or as a load leaves it. -/
theorem WindowSound.of_quiet {x : Window} (hs : x.state ≠ .draining) (ha : x.activity = .idle)
    (hd : x.deferred = none) : WindowSound x false false := by
  refine ⟨fun _ => ⟨ha, hd⟩, fun h => absurd h hs, fun _ => by rw [ha, hd]; rfl, ?_, ?_⟩
  · rw [ha]; simp
  · rw [ha]; simp

/-- A window that drains. -/
theorem WindowSound.of_draining {x : Window} (hs : x.state = .draining) (ha : x.activity = .idle)
    (hd : x.deferred.map (·.kind) = some .disable) (hn : 1 ≤ x.inflight) :
    WindowSound x false false := by
  refine ⟨fun h => ?_, fun _ => ⟨ha, hd, hn⟩, fun h => ?_, ?_, ?_⟩
  · rw [hs] at h; cases h
  · rw [hs] at h; cases h
  · rw [ha]; simp
  · rw [ha]; simp

section
variable {s t : State}

/-- A change to one window alone. -/
theorem lifecycleSound_setWindow {w : Fin 16} {x : Window} (h : LifecycleSound s)
    (hw : t.windows = s.windows.set w x) (hs : t.sweep = s.sweep) (hc : t.captures = s.captures)
    (hp : t.phase = s.phase) (hx : WindowSound x (s.sweepsWindow w) s.captures[w].isSome) :
    LifecycleSound t := by
  rw [lifecycleSound_iff] at h ⊢
  refine ⟨fun v => ?_, by rw [hp, hs]; exact h.2⟩
  have hsw : t.sweepsWindow v = s.sweepsWindow v := by rw [State.sweepsWindow, hs]; rfl
  rw [hw, hsw, hc, get_set]
  split
  · rename_i hv
    exact hv ▸ hx
  · exact h.1 v

/-- A change to one window and to whose sweep and whose capture runs. -/
theorem lifecycleSound_change {w : Fin 16} {x : Window} (h : LifecycleSound s)
    (hw : t.windows = s.windows.set w x)
    (hs : ∀ v : Fin 16, v ≠ w → t.sweepsWindow v = s.sweepsWindow v)
    (hc : ∀ v : Fin 16, v ≠ w → t.captures[v].isSome = s.captures[v].isSome)
    (hp : t.phase ≠ .serving → t.sweep = none)
    (hx : WindowSound x (t.sweepsWindow w) t.captures[w].isSome) : LifecycleSound t := by
  rw [lifecycleSound_iff] at h ⊢
  refine ⟨fun v => ?_, hp⟩
  rw [hw, get_set]
  split
  · rename_i hv
    exact hv ▸ hx
  · rename_i hv
    rw [hs v (Ne.symm hv), hc v (Ne.symm hv)]
    exact h.1 v

/-- Nothing that the lifecycle speaks of changes. -/
theorem lifecycleSound_of_eq (h : LifecycleSound s) (hw : t.windows = s.windows)
    (hs : t.sweep.map Sweep.window = s.sweep.map Sweep.window)
    (hc : ∀ w : Fin 16, t.captures[w].isSome = s.captures[w].isSome) (hp : t.phase = s.phase) :
    LifecycleSound t := by
  rw [lifecycleSound_iff] at h ⊢
  refine ⟨fun w => ?_, fun hn => ?_⟩
  · have hsw : t.sweepsWindow w = s.sweepsWindow w := by
      have hany : ∀ c : Option Sweep, c.any (·.window = w) = (c.map Sweep.window).any (· = w) :=
        fun c => by cases c <;> rfl
      rw [State.sweepsWindow, State.sweepsWindow, hany, hany, hs]
    rw [hw, hsw, hc]
    exact h.1 w
  · have := h.2 (hp ▸ hn)
    rw [this] at hs
    exact Option.map_eq_none_iff.1 hs

/-- The sweep of window w, told by the window of the context. -/
theorem State.sweepsWindow_eq (s : State) (w : Fin 16) :
    s.sweepsWindow w = true ↔ s.sweep.map Sweep.window = some w := by
  unfold State.sweepsWindow
  cases s.sweep <;> simp

theorem lifecycleSound_stopSweep {c : Sweep} (h : LifecycleSound s)
    (hc : s.sweep.map Sweep.window = some c.window) : LifecycleSound { s with
      windows := s.windows.set c.window
        { s.windows[c.window] with activity := .idle, deferred := none }
      sweep := none } := by
  have hw := ((lifecycleSound_iff s).1 h).1
  have hact : s.windows[c.window].activity = .sweeping :=
    (hw c.window).sweeping.2 ((s.sweepsWindow_eq _).2 hc)
  refine lifecycleSound_change h rfl (fun v hv => ?_) (fun _ _ => rfl) (fun _ => rfl) ?_
  · refine (Bool.eq_false_iff.2 fun hs => ?_).symm
    rw [s.sweepsWindow_eq, hc] at hs
    exact hv (Option.some.inj hs).symm
  · have hcap : s.captures[c.window].isSome = false := by
      refine Bool.eq_false_iff.2 fun hs => ?_
      have := (hw c.window).zeroing.2 hs
      rw [hact] at this
      cases this
    show WindowSound _ false s.captures[c.window].isSome
    rw [hcap]
    exact (hw c.window).stop (by rw [hact]; decide) rfl rfl rfl

theorem lifecycleSound_stopCapture {w : Fin 16} {c : Capture} (h : LifecycleSound s)
    (hc : s.captures[w] = some c) : LifecycleSound { s with
      windows := s.windows.set w { s.windows[w] with activity := .idle, deferred := none }
      captures := s.captures.set w none } := by
  obtain ⟨hw, hp⟩ := (lifecycleSound_iff s).1 h
  have hact : s.windows[w].activity = .zeroing := (hw w).zeroing.2 (by rw [hc]; rfl)
  refine lifecycleSound_change h rfl (fun _ _ => rfl)
    (fun v hv => congrArg Option.isSome (get_set_ne _ _ (Ne.symm hv))) hp ?_
  have hsw : s.sweepsWindow w = false := by
    refine Bool.eq_false_iff.2 fun hs => ?_
    have := (hw w).sweeping.2 hs
    rw [hact] at this
    cases this
  show WindowSound _ (s.sweepsWindow w) (s.captures.set w none)[w].isSome
  rw [hsw, get_set_self]
  exact (hw w).stop (by rw [hact]; decide) rfl rfl rfl

theorem lifecycleSound_startSweep {w : Fin 16} {c : Sweep} (trn : Byte) (h : LifecycleSound s)
    (hp : s.phase = .serving) (hs : s.windows[w].state = .enabled)
    (ha : s.windows[w].activity = .idle)
    (ho : ∀ v : Fin 16, v ≠ w → s.windows[v].activity ≠ .sweeping) (hc : c.window = w) :
    LifecycleSound { s with
      windows := s.windows.set w
        { s.windows[w] with activity := .sweeping, deferred := some ⟨trn, .sweep⟩ }
      sweep := some c } := by
  have hw := ((lifecycleSound_iff s).1 h).1
  refine lifecycleSound_change h rfl (fun v hv => ?_) (fun _ _ => rfl) (fun hn => absurd hp hn) ?_
  · have hold : s.sweepsWindow v = false :=
      Bool.eq_false_iff.2 fun hsv => ho v hv ((hw v).sweeping.2 hsv)
    rw [hold]
    refine Bool.eq_false_iff.2 fun hn => hv ?_
    rw [State.sweepsWindow_eq] at hn
    rw [← Option.some.inj hn, hc]
  · have hself : ({ s with
      windows := s.windows.set w
        { s.windows[w] with activity := .sweeping, deferred := some ⟨trn, .sweep⟩ }
      sweep := some c } : State).sweepsWindow w = true := by
      rw [State.sweepsWindow_eq]
      exact congrArg some hc
    rw [hself, ((hw w).of_idle ha).2]
    refine ⟨fun hn => ?_, fun hn => ?_, fun _ => rfl, by simp, by simp⟩
    · rw [hs] at hn; cases hn
    · rw [hs] at hn; cases hn

theorem lifecycleSound_startCapture {w : Fin 16} {c : Capture} (trn : Byte) (h : LifecycleSound s)
    (hs : s.windows[w].state = .enabled) (ha : s.windows[w].activity = .idle) :
    LifecycleSound { s with
      windows := s.windows.set w
        { s.windows[w] with activity := .zeroing, deferred := some ⟨trn, .zero⟩ }
      captures := s.captures.set w (some c) } := by
  obtain ⟨hw, hp⟩ := (lifecycleSound_iff s).1 h
  refine lifecycleSound_change h rfl (fun _ _ => rfl)
    (fun v hv => congrArg Option.isSome (get_set_ne _ _ (Ne.symm hv))) hp ?_
  show WindowSound _ (s.sweepsWindow w) (s.captures.set w (some c))[w].isSome
  rw [((hw w).of_idle ha).1, get_set_self]
  refine ⟨fun hn => ?_, fun hn => ?_, fun _ => rfl, by simp, by simp⟩
  · rw [hs] at hn; cases hn
  · rw [hs] at hn; cases hn

theorem Window.outOfService_eq (x : Window) :
    x.outOfService = true ↔ x.state = .disabled ∧ x.activity = .idle ∧ x.deferred = none := by
  simp [Window.outOfService, and_assoc]

/-- A window as a load leaves it (R1). -/
theorem windowSound_load (b : BootWindow) : WindowSound b.load false false :=
  .of_quiet (by unfold BootWindow.load; dsimp only; split <;> decide) rfl rfl

theorem lifecycleSound_load {i : BootImage} (h : LifecycleSound s)
    (hp : s.phase ≠ .serving ∨ ∀ w : Fin 16, s.windows[w].outOfService = true) :
    LifecycleSound (s.loadImage i) := by
  obtain ⟨hw, hserv⟩ := (lifecycleSound_iff s).1 h
  have hsweep : s.sweep = none := by
    rcases hp with hp | hout
    · exact hserv hp
    · cases hc : s.sweep with
      | none => rfl
      | some c =>
        have hact := (hw c.window).sweeping.2 ((s.sweepsWindow_eq _).2 (by rw [hc]; rfl))
        have hidle := hout c.window
        rw [Window.outOfService_eq] at hidle
        exact nomatch hact.symm.trans hidle.2.1
  rw [lifecycleSound_iff]
  refine ⟨fun w => ?_, fun _ => hsweep⟩
  have hnone : (s.loadImage i).sweepsWindow w = false := by
    rw [State.sweepsWindow, show (s.loadImage i).sweep = none from hsweep]
    rfl
  have hcap : (s.loadImage i).captures[w] = none := by simp [State.loadImage]
  have hwin : (s.loadImage i).windows[w] = i.windows[w].load := by simp [State.loadImage]
  rw [hnone, hcap, hwin]
  exact windowSound_load _

theorem lifecycleSound_reset (s : State) (m : Bool) : LifecycleSound (s.hardwareReset m) := by
  rw [lifecycleSound_iff]
  refine ⟨fun w => ?_, fun _ => rfl⟩
  have hcap : (s.hardwareReset m).captures[w] = none := by simp [State.hardwareReset, State.reset]
  have hwin : (s.hardwareReset m).windows[w] = .default := by
    simp [State.hardwareReset, State.reset]
  rw [hcap, hwin]
  exact .of_quiet (by decide) rfl rfl

end

theorem Move.keeps_lifecycle {s t : State} (m : Move s t) (h : LifecycleSound s) :
    LifecycleSound t := by
  have hall := ((lifecycleSound_iff s).1 h).1
  cases m with
  | offerFault f =>
    obtain ⟨_, _, _, _, _, heq⟩ := s.offerFault_frame f
    exact heq ▸ h
  | offerNotice b =>
    obtain ⟨_, _, heq⟩ := s.offerNotice_frame b
    exact heq ▸ h
  | complete trn status payload =>
    obtain ⟨_, _, _, heq⟩ := s.completeDeferred_frame trn status payload
    exact heq ▸ h
  | offer =>
    obtain ⟨_, heq⟩ := s.offerResponse_frame
    exact heq ▸ h
  | @take i rest e e' l =>
    obtain ⟨_, heq⟩ := s.drawTags_frame l
    rw [heq]
    exact h
  | write id =>
    rw [State.setCopy_eq]
    exact h
  | mark w => exact lifecycleSound_setWindow h rfl rfl rfl rfl ((hall w).of_eq rfl rfl rfl rfl)
  | @define w => exact lifecycleSound_setWindow h rfl rfl rfl rfl ((hall w).of_eq rfl rfl rfl rfl)
  | @enable w hs =>
    obtain ⟨ha, hd⟩ := (hall w).disabled hs
    refine lifecycleSound_setWindow h rfl rfl rfl rfl ?_
    obtain ⟨h1, h2⟩ := (hall w).of_idle ha
    rw [h1, h2]
    exact .of_quiet nofun ha hd
  | @disable w hs ha =>
    refine lifecycleSound_setWindow h rfl rfl rfl rfl ?_
    obtain ⟨h1, h2⟩ := (hall w).of_idle ha
    have hd := (hall w).enabled hs
    rw [ha] at hd
    rw [h1, h2]
    exact .of_quiet nofun ha (Option.map_eq_none_iff.1 hd)
  | @drain w trn hs ha hn =>
    refine lifecycleSound_setWindow h rfl rfl rfl rfl ?_
    obtain ⟨h1, h2⟩ := (hall w).of_idle ha
    rw [h1, h2]
    exact .of_draining rfl ha rfl (Nat.one_le_iff_ne_zero.2 hn)
  | startSweep trn hp hs ha ho hc => exact lifecycleSound_startSweep trn h hp hs ha ho hc
  | advance hsw => exact lifecycleSound_of_eq h rfl hsw (fun _ => rfl) rfl
  | stopSweep hc => exact lifecycleSound_stopSweep h hc
  | startCapture trn hs ha => exact lifecycleSound_startCapture trn h hs ha
  | @sample w c acc hc =>
    refine lifecycleSound_of_eq h rfl rfl (fun v => ?_) rfl
    show (s.captures.set w _)[v].isSome = s.captures[v].isSome
    rw [get_set]
    split
    · rename_i hv
      rw [← hv, hc]
      rfl
    · rfl
  | stopCapture hc => exact lifecycleSound_stopCapture h hc
  | @queue i e =>
    unfold queuedAs
    cases hw : e.window with
    | none => exact h
    | some w =>
      refine lifecycleSound_setWindow (w := w) h rfl rfl rfl rfl ?_
      obtain ⟨h1, h2, h3, h4, h5⟩ := hall w
      exact ⟨h1, fun hd => ⟨(h2 hd).1, (h2 hd).2.1, Nat.le_add_left 1 _⟩, h3, h4, h5⟩
  | @deliverCounted i e w _ _ _ hd =>
    refine lifecycleSound_setWindow h rfl rfl rfl rfl ?_
    obtain ⟨h1, h2, h3, h4, h5⟩ := hall w
    refine ⟨h1, fun hs => ⟨(h2 hs).1, (h2 hs).2.1, ?_⟩, h3, h4, h5⟩
    exact Nat.one_le_iff_ne_zero.2 fun hn => hd ⟨hs, hn⟩
  | @deliverLast i e w _ _ _ hs =>
    refine lifecycleSound_setWindow h rfl rfl rfl rfl ?_
    have ha := ((hall w).draining hs).1
    obtain ⟨h1, h2⟩ := (hall w).of_idle ha
    rw [h1, h2]
    exact .of_quiet nofun ha rfl
  | reset m => exact lifecycleSound_reset s m
  | @enter p hp =>
    rw [lifecycleSound_iff] at h ⊢
    refine ⟨h.1, fun hn => h.2 ?_⟩
    exact hp.resolve_left hn
  | load hp => exact lifecycleSound_load h hp
  | untracked | popFault | clearFaults | count | reply | register | receive | lineBreak | sendReply
  | skipReply | sendNotice | endReply | endPacket | deny | deliver | drawSweep | issue | answer
  | settle | fill | status | commit => exact h

/-- Settles O56: every change keeps the lifecycle of every window sound. -/
theorem lifecycleStaysSound : Obligations.LifecycleStaysSound :=
  fun _ _ hs h => step_keeps (fun _ _ h => h) (fun _ h => h) (fun _ _ m => m.keeps_lifecycle) hs h

end Sys2Proof.Machine

/-! PROOFS. The in-flight counts (section 1.4): every change keeps them exact, and so every step. -/

namespace Sys2Proof.Machine

/-- The number of elements with a property, when one element is set. -/
theorem countP_set_add {α : Type} {n : Nat} (p : α → Bool) (v : Vector α n) (i : Fin n) (x : α) :
    (v.set i x).toList.countP p + (p v[i]).toNat = v.toList.countP p + (p x).toNat := by
  have hcount : (v.set i x).toList.countP p
      = v.toList.countP p - (if p v[i] = true then 1 else 0) + if p x = true then 1 else 0 := by
    rw [Vector.toList_set, List.countP_set (by simp)]
    simp only [Vector.getElem_toList]
    rfl
  have hnat (b : Bool) : (if b = true then 1 else 0) = b.toNat := by cases b <;> rfl
  have hle : (p v[i]).toNat ≤ v.toList.countP p := by
    cases hp : p v[i] with
    | false => exact Nat.zero_le _
    | true => exact List.countP_pos_iff.2 ⟨v[i], by simp, hp⟩
  rw [hnat, hnat] at hcount
  omega

/-- Entry e records window w (R8). -/
def records (w : Fin 16) (e : Option Entry) : Bool := e.any (·.window = some w)

theorem records_some (w : Fin 16) (e : Entry) : records w (some e) = decide (e.window = some w) := rfl

/-- An entry that records no window. -/
theorem records_of_none {e : Option Entry} (h : ∀ x, e = some x → x.window = none) (w : Fin 16) :
    records w e = false := by
  cases e with
  | none => rfl
  | some x => simp [records_some, h x rfl]

/-- Entries of the same window. -/
theorem records_congr {e e' : Entry} (h : e'.window = e.window) (w : Fin 16) :
    records w (some e') = records w (some e) := by
  rw [records_some, records_some, h]

section
variable {s t : State}

theorem State.recorded_set {i : Fin 32} {x : Option Entry} (h : t.entries = s.entries.set i x)
    (w : Fin 16) :
    t.recorded w + (records w s.entries[i]).toNat = s.recorded w + (records w x).toNat := by
  rw [State.recorded, h]
  exact countP_set_add (records w) s.entries i x

theorem State.recorded_of_empty (h : ∀ i : Fin 32, s.entries[i] = none) (w : Fin 16) :
    s.recorded w = 0 := by
  refine List.countP_eq_zero.2 fun e he => ?_
  obtain ⟨i, hi, rfl⟩ := Vector.mem_iff_getElem.1 (Vector.mem_toList_iff.1 he)
  have := h ⟨i, hi⟩
  rw [Fin.getElem_fin] at this
  simp [this]

/-- Only windows change, and those keep their counts. -/
theorem inFlightSound_setWindow {w : Fin 16} {x : Window} (h : InFlightSound s)
    (hw : t.windows = s.windows.set w x) (he : t.entries = s.entries) (hp : t.phase = s.phase)
    (hn : x.inflight = s.windows[w].inflight) (hd : x.state = .disabled → x.inflight = 0) :
    InFlightSound t := by
  refine ⟨fun v => ?_, by rw [hp, he]; exact h.2⟩
  have hrec : t.recorded v = s.recorded v := by rw [State.recorded, he]; rfl
  rw [hrec, hw, get_set]
  split
  · rename_i hv
    exact ⟨hn.trans (hv ▸ (h.1 w).1), hd⟩
  · exact h.1 v

/-- One entry changes: the counts follow the window that it records. -/
theorem inFlightSound_setEntry {i : Fin 32} {x : Option Entry} (h : InFlightSound s)
    (he : t.entries = s.entries.set i x)
    (hw : ∀ w : Fin 16, t.windows[w].inflight + (records w s.entries[i]).toNat
      = s.windows[w].inflight + (records w x).toNat)
    (hd : ∀ w : Fin 16, t.windows[w].state = .disabled → t.windows[w].inflight = 0)
    (hp : t.phase ≠ .serving → s.phase ≠ .serving ∧ x = none) : InFlightSound t := by
  refine ⟨fun w => ⟨?_, hd w⟩, fun hn j => ?_⟩
  · have hrec := State.recorded_set he w
    have hold := (h.1 w).1
    have hwin := hw w
    omega
  · obtain ⟨hs, rfl⟩ := hp hn
    rw [he, get_set]
    split
    · rfl
    · exact h.2 hs j

/-- An entry is replaced by one of the same window. -/
theorem inFlightSound_replace {i : Fin 32} {e e' : Entry} (h : InFlightSound s)
    (hi : s.entries[i] = some e) (hw : e'.window = e.window)
    (he : t.entries = s.entries.set i (some e')) (hwin : t.windows = s.windows)
    (hp : t.phase = s.phase) : InFlightSound t := by
  refine inFlightSound_setEntry h he (fun w => ?_) (fun w => ?_) fun hn => ?_
  · rw [hwin, hi, records_congr hw]
  · rw [hwin]
    exact (h.1 w).2
  · have := h.2 (hp ▸ hn) i
    rw [hi] at this
    cases this

/-- The counts of the windows when one of them changes. -/
theorem inflight_set {w : Fin 16} {x : Window} (hw : t.windows = s.windows.set w x) (v : Fin 16) :
    t.windows[v].inflight = if w = v then x.inflight else s.windows[v].inflight := by
  rw [hw, get_set]
  split <;> rfl

theorem inFlightSound_queue {i : Fin 32} {e : Entry} (h : InFlightSound s) (hp : s.phase = .serving)
    (hi : s.entries[i] = none) (hw : ∀ w, e.window = some w → s.windows[w].state = .enabled) :
    InFlightSound (queuedAs s i e.window e) := by
  cases hm : e.window with
  | none =>
    refine inFlightSound_setEntry (i := i) (x := some e) h rfl (fun v => ?_) (fun v => (h.1 v).2)
      fun hn => absurd hp hn
    rw [hi, records_of_none (e := some e) (fun _ hx => Option.some.inj hx ▸ hm)]
    rfl
  | some w =>
    have hset : (queuedAs s i (some w) e).windows
        = s.windows.set w { s.windows[w] with inflight := s.windows[w].inflight + 1 } := rfl
    refine inFlightSound_setEntry (i := i) (x := some e) h rfl (fun v => ?_) (fun v hv => ?_)
      fun hn => absurd hp hn
    · rw [inflight_set hset, hi, records_some, hm]
      by_cases hwv : w = v
      · subst hwv
        simp [records]
      · simp [records, hwv]
    · rw [hset, get_set] at hv ⊢
      split at hv
      · rw [show (_ : Window).state = s.windows[w].state from rfl, hw w hm] at hv
        cases hv
      · rename_i hwv
        rw [if_neg hwv]
        exact (h.1 v).2 hv

/-- A delivery of an entry that records a window: the window counts one fewer. -/
theorem inFlightSound_deliver {i : Fin 32} {e : Entry} {w : Fin 16} {x : Window}
    (h : InFlightSound s) (hi : s.entries[i] = some e) (he : e.window = some w)
    (hx : x.inflight = s.windows[w].inflight - 1)
    (hd : x.state = .disabled → x.inflight = 0)
    (ht : t.entries = s.entries.set i none) (hw : t.windows = s.windows.set w x)
    (hp : t.phase = s.phase) : InFlightSound t := by
  refine inFlightSound_setEntry h ht (fun v => ?_) (fun v hv => ?_) fun hn => ⟨hp ▸ hn, rfl⟩
  · have hpos : 1 ≤ s.windows[w].inflight := by
      rw [(h.1 w).1]
      exact List.countP_pos_iff.2 ⟨s.entries[i], by simp, by simp [hi, he]⟩
    rw [inflight_set hw, hi, records_some, he]
    by_cases hwv : w = v
    · subst hwv
      rw [if_pos rfl, hx, decide_eq_true rfl, Bool.toNat_true, Nat.sub_add_cancel hpos]
      rfl
    · simp [records, hwv]
  · rw [hw, get_set] at hv ⊢
    split at hv
    · rename_i hwv
      rw [if_pos hwv]
      exact hd hv
    · rename_i hwv
      rw [if_neg hwv]
      exact (h.1 v).2 hv

theorem inFlightSound_load {i : BootImage} (h : InFlightSound s)
    (hp : s.phase ≠ .serving ∨ ∀ w : Fin 16, s.windows[w].outOfService = true) :
    InFlightSound (s.loadImage i) := by
  have hzero : ∀ w : Fin 16, s.recorded w = 0 := fun w => by
    rcases hp with hp | hout
    · exact State.recorded_of_empty (h.2 hp) w
    · rw [← (h.1 w).1]
      exact (h.1 w).2 ((Window.outOfService_eq _).1 (hout w)).1
  refine ⟨fun w => ?_, h.2⟩
  have hwin : (s.loadImage i).windows[w].inflight = 0 := by
    simp [State.loadImage, BootWindow.load]
  exact ⟨hwin.trans (hzero w).symm, fun _ => hwin⟩

theorem inFlightSound_reset (s : State) (m : Bool) : InFlightSound (s.hardwareReset m) := by
  have hempty : ∀ i : Fin 32, (s.hardwareReset m).entries[i] = none := fun i => by
    simp [State.hardwareReset, State.reset]
  refine ⟨fun w => ?_, fun _ => hempty⟩
  have hwin : (s.hardwareReset m).windows[w].inflight = 0 := by
    simp [State.hardwareReset, State.reset, Window.default]
  exact ⟨hwin.trans (State.recorded_of_empty hempty w).symm, fun _ => hwin⟩

end

theorem Move.keeps_inFlight {s t : State} (m : Move s t) (h : InFlightSound s) : InFlightSound t := by
  cases m with
  | offerFault f =>
    obtain ⟨_, _, _, _, _, heq⟩ := s.offerFault_frame f
    exact heq ▸ h
  | offerNotice b =>
    obtain ⟨_, _, heq⟩ := s.offerNotice_frame b
    exact heq ▸ h
  | complete trn status payload =>
    obtain ⟨_, _, _, heq⟩ := s.completeDeferred_frame trn status payload
    exact heq ▸ h
  | offer =>
    obtain ⟨_, heq⟩ := s.offerResponse_frame
    exact heq ▸ h
  | write id =>
    rw [State.setCopy_eq]
    exact h
  | mark w => exact inFlightSound_setWindow h rfl rfl rfl rfl (h.1 w).2
  | @define w => exact inFlightSound_setWindow h rfl rfl rfl rfl (h.1 w).2
  | enable => exact inFlightSound_setWindow h rfl rfl rfl rfl nofun
  | disable hs ha hn => exact inFlightSound_setWindow h rfl rfl rfl rfl fun _ => hn
  | drain => exact inFlightSound_setWindow h rfl rfl rfl rfl nofun
  | @startSweep w => exact inFlightSound_setWindow h rfl rfl rfl rfl (h.1 w).2
  | @stopSweep c => exact inFlightSound_setWindow h rfl rfl rfl rfl (h.1 c.window).2
  | @startCapture w => exact inFlightSound_setWindow h rfl rfl rfl rfl (h.1 w).2
  | @stopCapture w => exact inFlightSound_setWindow h rfl rfl rfl rfl (h.1 w).2
  | @deny i e hp hi hs hw =>
    refine inFlightSound_setEntry (i := i) (x := some e) h rfl (fun v => ?_) (fun v => (h.1 v).2)
      fun hn => absurd hp hn
    rw [hi, records_of_none (e := some e) (fun _ hx => Option.some.inj hx ▸ hw)]
    rfl
  | queue hp hi hs hw => exact inFlightSound_queue h hp hi hw
  | @deliver i ho hw =>
    refine inFlightSound_setEntry (i := i) (x := none) h rfl (fun v => ?_) (fun v => (h.1 v).2)
      fun hn => ⟨hn, rfl⟩
    rw [records_of_none hw]
    rfl
  | @deliverCounted i e w ho he hw hd =>
    refine inFlightSound_deliver h he hw rfl (fun hs => ?_) rfl rfl rfl
    show s.windows[w].inflight - 1 = 0
    rw [(h.1 w).2 hs]
  | deliverLast ho he hw hs hn => exact inFlightSound_deliver h he hw rfl (fun _ => hn) rfl rfl rfl
  | @take i rest e e' l hq he hs hw =>
    obtain ⟨_, heq⟩ := s.drawTags_frame l
    rw [heq]
    exact inFlightSound_replace h he hw rfl rfl rfl
  | answer ht ho he => exact inFlightSound_replace h he (by rfl) rfl rfl rfl
  | fill buffer he => exact inFlightSound_replace h he (by rfl) rfl rfl rfl
  | reset m => exact inFlightSound_reset s m
  | enter hp => exact ⟨h.1, fun hn => h.2 (hp.resolve_left hn)⟩
  | load hp => exact inFlightSound_load h hp
  | untracked | popFault | clearFaults | count | reply | register | receive | lineBreak | sendReply
  | skipReply | sendNotice | endReply | endPacket | advance | sample | drawSweep | issue | settle
  | status | commit => exact h

/-- Settles O57: every change keeps the in-flight counts exact. -/
theorem inFlightStaysExact : Obligations.InFlightStaysExact :=
  fun _ _ hs h => step_keeps (fun _ _ h => h) (fun _ h => h) (fun _ _ m => m.keeps_inFlight) hs h

end Sys2Proof.Machine

/-! PROOFS. The intake queue, the pending counts, the tags and the offer (chapters 3 and 4), and the
deadlines that stand (section 9.1): every change keeps them sound, and so every step. -/

namespace Sys2Proof.Machine

/-- Tag x is in use for entry i. -/
def heldFor (i : Fin 32) : Tag → Bool
  | .inUse r =>
    match r.owner with
    | .host j _ => j = i
    | .sweep _ => false
  | _ => false

theorem heldFor_host {i : Fin 32} {r : TagRecord} {j : Fin 32} {role : HostRole}
    (h : r.owner = .host j role) : heldFor i (.inUse r) = decide (j = i) := by
  simp only [heldFor, h]

theorem heldFor_sweep {i : Fin 32} {r : TagRecord} {role : ReqKind} (h : r.owner = .sweep role) :
    heldFor i (.inUse r) = false := by
  simp only [heldFor, h]

theorem heldFor_of_not_inUse {i : Fin 32} {x : Tag} (h : x.isInUse = false) : heldFor i x = false := by
  cases x with
  | inUse r => cases h
  | free | quarantined r => rfl

/-- The deadline of an issued sub-request (R47). -/
def Tag.deadline : Tag → Option Nat
  | .inUse r => if r.issued then r.deadline else none
  | _ => none

theorem Tag.deadline_of_not_inUse {x : Tag} (h : x.isInUse = false) : x.deadline = none := by
  cases x with
  | inUse r => cases h
  | free | quarantined r => rfl

theorem Tag.deadline_of_unissued {r : TagRecord} (h : r.issued = false) :
    Tag.deadline (.inUse r) = none := by
  simp only [Tag.deadline, h]
  rfl

namespace State

theorem ownedBy_eq (s : State) (i : Fin 32) (t : Fin 64) : s.ownedBy i t = heldFor i s.tags[t] := by
  unfold ownedBy heldFor
  cases s.tags[t] with
  | inUse r => cases r.owner <;> rfl
  | free | quarantined r => rfl

theorem owned_eq (s : State) (i : Fin 32) : s.owned i = s.tags.toList.countP (heldFor i) := by
  have hlist : s.tags.toList = (List.finRange 64).map fun t => s.tags[t] :=
    List.ext_getElem (by simp) fun _ _ _ => by simp
  rw [owned, hlist, List.countP_map]
  exact congrFun (congrArg _ (funext fun t => s.ownedBy_eq i t)) _

theorem tagDeadline_eq (s : State) (t : Fin 64) : s.tagDeadline t = s.tags[t].deadline := by
  unfold tagDeadline Tag.deadline
  cases s.tags[t] <;> rfl

theorem owned_congr {s t : State} (h : t.tags = s.tags) (i : Fin 32) : t.owned i = s.owned i := by
  rw [owned_eq, owned_eq, h]

theorem owned_set {s t : State} {u : Fin 64} {x : Tag} (h : t.tags = s.tags.set u x) (i : Fin 32) :
    t.owned i + (heldFor i s.tags[u]).toNat = s.owned i + (heldFor i x).toNat := by
  rw [owned_eq, owned_eq, h]
  exact countP_set_add (heldFor i) s.tags u x

/-- An entry that owns a tag has it counted. -/
theorem one_le_owned {s : State} {i : Fin 32} {t : Fin 64} (h : heldFor i s.tags[t] = true) :
    1 ≤ s.owned i := by
  rw [owned_eq]
  exact List.countP_pos_iff.2 ⟨s.tags[t], by simp, h⟩

/-- Tags drawn for entry i. -/
theorem owned_drawTags (l : List (Fin 64 × TagRecord)) (s : State) (i j : Fin 32)
    (hd : (l.map Prod.fst).Nodup)
    (hl : ∀ p ∈ l, s.tags[p.1] = .free ∧ p.2.issued = false ∧ ∃ role, p.2.owner = .host i role) :
    (s.drawTags l).owned j = s.owned j + if i = j then l.length else 0 := by
  induction l generalizing s with
  | nil => simp [drawTags]
  | cons p l ih =>
    rw [List.map_cons, List.nodup_cons] at hd
    obtain ⟨hfree, _, role, hrole⟩ := hl p List.mem_cons_self
    have hrest : ∀ q ∈ l, (s.setTag p.1 (.inUse p.2)).tags[q.1] = .free ∧ q.2.issued = false
        ∧ ∃ role, q.2.owner = .host i role := by
      intro q hq
      obtain ⟨hqf, hq'⟩ := hl q (List.mem_cons_of_mem _ hq)
      refine ⟨?_, hq'⟩
      have hne : p.1 ≠ q.1 := fun he => hd.1 (he ▸ List.mem_map_of_mem hq)
      exact (get_set_ne s.tags _ hne).trans hqf
    have hone := owned_set (s := s) (t := s.setTag p.1 (.inUse p.2)) rfl j
    rw [hfree, heldFor_of_not_inUse rfl, heldFor_host hrole] at hone
    rw [show s.drawTags (p :: l) = (s.setTag p.1 (.inUse p.2)).drawTags l from rfl,
      ih _ hd.2 hrest]
    by_cases hij : i = j
    · simp [hij] at hone ⊢
      omega
    · simp [hij] at hone ⊢
      omega

/-- A tag drawn has no deadline yet, and the others keep theirs. -/
theorem tagDeadline_drawTags (l : List (Fin 64 × TagRecord)) (s : State)
    (hl : ∀ p ∈ l, p.2.issued = false) (t : Fin 64) :
    ∀ d ∈ (s.drawTags l).tagDeadline t, d ∈ s.tagDeadline t := by
  induction l generalizing s with
  | nil => exact fun _ h => h
  | cons p l ih =>
    intro d hd
    have hset := ih (s.setTag p.1 (.inUse p.2)) (fun q hq => hl q (List.mem_cons_of_mem _ hq)) d hd
    rw [tagDeadline_eq, setTag_tags, get_set] at hset
    rw [tagDeadline_eq]
    split at hset
    · rw [Tag.deadline_of_unissued (hl p List.mem_cons_self)] at hset
      cases hset
    · exact hset

end State

/-! ### Entries, the intake queue and the offer -/

/-- What is sound of one entry: it is listed in the intake queue, owns tags and is on offer as its state
says (R42, R57, R62). -/
structure EntryTracked (e : Option Entry) (listed : Prop) (owned : Nat) (offered : Prop) : Prop where
  queued : e.map (·.state) = some .queued ↔ listed
  issued : e.map (·.state) = some .issued →
    e.map (·.pending) = some owned ∧ 1 ≤ owned ∧ owned ≤ 2
  others : e.map (·.state) ≠ some .issued → owned = 0
  ready : offered → e.map (·.state) = some .ready

/-- The intake queue, the pending counts, the tags and the offer (R42, R50, R57, R62): `TrackingSound`
but for the deadlines. -/
abbrev EntriesTracked (s : State) : Prop :=
  s.intake.Nodup
    ∧ ∀ i : Fin 32, EntryTracked s.entries[i] (i ∈ s.intake) (s.owned i) (s.offered = some i)

theorem trackingSound_iff (s : State) :
    TrackingSound s ↔ EntriesTracked s ∧ DeadlinesFrom s (s.usBase + 1) := by
  constructor
  · rintro ⟨h1, h2, h3, h4, h5, h6⟩
    exact ⟨⟨h1, fun i => ⟨h2 i, h3 i, h4 i, h5 i⟩⟩, h6⟩
  · rintro ⟨⟨h1, h⟩, h6⟩
    exact ⟨h1, fun i => (h i).queued, fun i => (h i).issued, fun i => (h i).others,
      fun i => (h i).ready, h6⟩

/-- A READY entry, which is neither listed nor owns a tag. -/
theorem EntryTracked.of_ready {e : Entry} {listed : Prop} {owned : Nat} {offered : Prop}
    (hs : e.state = .ready) (hl : ¬listed) (ho : owned = 0) :
    EntryTracked (some e) listed owned offered where
  queued := by simp [hs, hl]
  issued h := by simp [hs] at h
  others _ := ho
  ready _ := by simp [hs]

/-- An ISSUED entry. -/
theorem EntryTracked.of_issued {e : Entry} {listed : Prop} {owned : Nat} {offered : Prop}
    (hs : e.state = .issued) (hl : ¬listed) (hp : e.pending = owned) (ho : 1 ≤ owned ∧ owned ≤ 2)
    (hf : ¬offered) : EntryTracked (some e) listed owned offered where
  queued := by simp [hs, hl]
  issued _ := ⟨congrArg some hp, ho⟩
  others h := absurd (congrArg some hs) h
  ready h := absurd h hf

/-- A QUEUED entry. -/
theorem EntryTracked.of_queued {e : Entry} {listed : Prop} {owned : Nat} {offered : Prop}
    (hs : e.state = .queued) (hl : listed) (ho : owned = 0) (hf : ¬offered) :
    EntryTracked (some e) listed owned offered where
  queued := by simp [hs, hl]
  issued h := by simp [hs] at h
  others _ := ho
  ready h := absurd h hf

/-- A FREE entry. -/
theorem EntryTracked.of_none {listed : Prop} {owned : Nat} {offered : Prop} (hl : ¬listed)
    (ho : owned = 0) (hf : ¬offered) : EntryTracked none listed owned offered where
  queued := by simp [hl]
  issued h := by simp at h
  others _ := ho
  ready h := absurd h hf

section
variable {s t : State}

/-- One entry changes, with what is said of it; nothing is newly said of another. -/
theorem entriesTracked_change {i : Fin 32} (h : EntriesTracked s) (hn : t.intake.Nodup)
    (he : ∀ j : Fin 32, j ≠ i → t.entries[j] = s.entries[j])
    (hq : ∀ j : Fin 32, j ≠ i → (j ∈ t.intake ↔ j ∈ s.intake))
    (ho : ∀ j : Fin 32, j ≠ i → t.owned j = s.owned j)
    (hf : ∀ j : Fin 32, j ≠ i → t.offered = some j → s.offered = some j)
    (hi : EntryTracked t.entries[i] (i ∈ t.intake) (t.owned i) (t.offered = some i)) :
    EntriesTracked t := by
  refine ⟨hn, fun j => ?_⟩
  by_cases hj : j = i
  · exact hj ▸ hi
  · obtain ⟨h1, h2, h3, h4⟩ := h.2 j
    rw [he j hj, ho j hj]
    exact ⟨h1.trans (hq j hj).symm, h2, h3, fun hoff => h4 (hf j hj hoff)⟩

/-- The counts of owned tags stay, and so do the entries, the queue and the offer. -/
theorem entriesTracked_of_owned (h : EntriesTracked s) (he : t.entries = s.entries)
    (hq : t.intake = s.intake) (hf : t.offered = s.offered) (ho : ∀ i, t.owned i = s.owned i) :
    EntriesTracked t := by
  refine ⟨hq ▸ h.1, fun i => ?_⟩
  rw [he, hq, hf, ho]
  exact h.2 i

/-- An entry that is not on offer, and owns no tag, leaves the table or comes new into it. -/
theorem EntryTracked.of_free {listed : Prop} {owned : Nat} {offered : Prop}
    (h : EntryTracked none listed owned offered) : ¬listed ∧ owned = 0 ∧ ¬offered :=
  ⟨fun hl => (nomatch h.queued.2 hl), h.others nofun, fun ho => (nomatch h.ready ho)⟩

theorem entriesTracked_offer (h : EntriesTracked s) : EntriesTracked s.offerResponse := by
  cases ho : s.offered with
  | some i => rwa [State.offerResponse_of_some ho]
  | none =>
    rw [State.offerResponse_of_none ho]
    refine ⟨h.1, fun i => ?_⟩
    obtain ⟨h1, h2, h3, _⟩ := h.2 i
    refine ⟨h1, h2, h3, fun hi => ?_⟩
    obtain ⟨e, he, hr, _⟩ := (s.eligible_iff i).1 (State.choice_eligible hi)
    show s.entries[i].map (·.state) = _
    rw [he, ← hr]
    rfl

theorem entriesTracked_deny {i : Fin 32} {e : Entry} (h : EntriesTracked s)
    (hi : s.entries[i] = none) (hs : e.state = .ready) :
    EntriesTracked { s with entries := s.entries.set i (some e) } := by
  refine entriesTracked_change (i := i) h h.1 (fun j hj => get_set_ne _ _ (Ne.symm hj))
    (fun _ _ => Iff.rfl) (fun _ _ => rfl) (fun _ _ ho => ho) ?_
  obtain ⟨hl, ho, _⟩ := (hi ▸ h.2 i).of_free
  rw [show ({ s with entries := s.entries.set i (some e) } : State).entries[i] = some e
    from get_set_self _ _ _]
  exact .of_ready hs hl ho

theorem entriesTracked_queue {i : Fin 32} {e : Entry} (m : Option (Fin 16)) (h : EntriesTracked s)
    (hi : s.entries[i] = none) (hs : e.state = .queued) : EntriesTracked (queuedAs s i m e) := by
  obtain ⟨hl, ho, hf⟩ := (hi ▸ h.2 i).of_free
  refine entriesTracked_change (i := i) h ?_ (fun j hj => get_set_ne _ _ (Ne.symm hj))
    (fun j hj => ?_) (fun _ _ => rfl) (fun _ _ ho => ho) ?_
  · exact List.nodup_append.2 ⟨h.1, List.nodup_singleton i,
      fun a ha b hb he => hl (List.mem_singleton.1 hb ▸ he ▸ ha)⟩
  · exact List.mem_append.trans (or_iff_left fun hm => hj (List.mem_singleton.1 hm))
  · rw [show (queuedAs s i m e).entries[i] = some e from get_set_self _ _ _]
    exact .of_queued hs (List.mem_append_right _ (List.mem_singleton_self i)) ho hf

/-- The entry on offer is delivered (R59). -/
theorem entriesTracked_deliver {i : Fin 32} (h : EntriesTracked s) (ho : s.offered = some i)
    (he : t.entries = s.entries.set i none) (hq : t.intake = s.intake) (hf : t.offered = none)
    (ht : t.tags = s.tags) : EntriesTracked t := by
  have hready := (h.2 i).ready ho
  refine entriesTracked_change (i := i) h (hq ▸ h.1)
    (fun j hj => by rw [he, get_set_ne _ _ (Ne.symm hj)]) (fun _ _ => by rw [hq])
    (fun _ _ => State.owned_congr ht _) (fun _ _ hn => by rw [hf] at hn; cases hn) ?_
  rw [he, get_set_self, hq, State.owned_congr ht, hf]
  refine .of_none (fun hl => ?_) ((h.2 i).others ?_) nofun
  · have := (h.2 i).queued.2 hl
    rw [hready] at this
    cases this
  · rw [hready]
    nofun

theorem entriesTracked_take {i : Fin 32} {rest : List (Fin 32)} {e' : Entry}
    {l : List (Fin 64 × TagRecord)} (h : EntriesTracked s) (hq : s.intake = i :: rest)
    (hs : e'.state = .issued) (hp : e'.pending = l.length)
    (hl : 1 ≤ l.length ∧ l.length ≤ 2) (hd : (l.map Prod.fst).Nodup)
    (hf : ∀ p ∈ l, s.tags[p.1] = .free ∧ p.2.issued = false ∧ ∃ role, p.2.owner = .host i role) :
    EntriesTracked { (s.drawTags l).setEntry i (some e') with intake := rest } := by
  have hown := State.owned_drawTags l s i
  obtain ⟨ts, heq⟩ := s.drawTags_frame l
  rw [heq] at hown ⊢
  have hnd := List.nodup_cons.1 (hq ▸ h.1)
  have hqueued := (h.2 i).queued.2 (hq ▸ List.mem_cons_self)
  refine entriesTracked_change (i := i) h hnd.2 (fun j hj => get_set_ne _ _ (Ne.symm hj))
    (fun j hj => ?_) (fun j hj => ?_) (fun _ _ ho => ho) ?_
  · rw [hq, List.mem_cons, or_iff_right hj]
  · exact (hown j hd hf).trans (by rw [if_neg (Ne.symm hj), Nat.add_zero])
  · have hzero : s.owned i = 0 := (h.2 i).others (by rw [hqueued]; nofun)
    have hcount := (hown i hd hf).trans (by rw [hzero, if_pos rfl, Nat.zero_add])
    refine show EntryTracked (s.entries.set i (some e'))[i] _ _ _ from ?_
    rw [get_set_self]
    refine .of_issued hs hnd.1 (hp.trans hcount.symm) ?_ fun ho => ?_
    · exact hcount.symm ▸ hl
    · have := (h.2 i).ready ho
      rw [hqueued] at this
      cases this

/-- A HOST tag leaves its use, its entry answered. -/
theorem entriesTracked_answer {u : Fin 64} {r : TagRecord} {i : Fin 32} {role : HostRole} {e : Entry}
    {x : Tag} (h : EntriesTracked s) (hu : s.tags[u] = .inUse r) (ho : r.owner = .host i role)
    (he : s.entries[i] = some e) (hx : x.isInUse = false) (st : HostStatus) :
    EntriesTracked { s with
      tags := s.tags.set u x, entries := s.entries.set i (some (State.answered e st)) } := by
  have hown (j : Fin 32) := State.owned_set (s := s)
    (t := { s with tags := s.tags.set u x
                   entries := s.entries.set i (some (State.answered e st)) }) rfl j
  simp only [hu, heldFor_host ho, heldFor_of_not_inUse hx, Bool.toNat_false, Nat.add_zero] at hown
  have hpos : 1 ≤ s.owned i :=
    State.one_le_owned (t := u) (by rw [hu, heldFor_host ho, decide_eq_true rfl])
  have hissued : s.entries[i].map (·.state) = some .issued := by
    by_contra hn
    have := (h.2 i).others hn
    omega
  refine entriesTracked_change (i := i) h h.1 (fun j hj => get_set_ne _ _ (Ne.symm hj))
    (fun _ _ => Iff.rfl) (fun j hj => ?_) (fun _ _ ho => ho) ?_
  · have := hown j
    rwa [decide_eq_false (Ne.symm hj)] at this
  · obtain ⟨hpend, _, htwo⟩ := (h.2 i).issued hissued
    have hself := hown i
    rw [decide_eq_true rfl, Bool.toNat_true] at hself
    rw [he] at hissued hpend
    have hstate : e.state = .issued := Option.some.inj hissued
    have hpending : e.pending = s.owned i := Option.some.inj hpend
    have hlist : i ∉ s.intake := fun hl => by
      have := (h.2 i).queued.2 hl
      rw [he, hissued] at this
      cases this
    have hoff : s.offered ≠ some i := fun hf => by
      have := (h.2 i).ready hf
      rw [he, hissued] at this
      cases this
    refine show EntryTracked (s.entries.set i (some (State.answered e st)))[i] _ _ _ from ?_
    rw [get_set_self]
    by_cases hz : e.pending - 1 = 0
    · exact .of_ready (if_pos hz) hlist (by omega)
    · refine .of_issued ((if_neg hz).trans hstate) hlist ?_ (by omega) hoff
      show e.pending - 1 = _
      omega

/-- The tag of no entry changes. -/
theorem entriesTracked_setTag {u : Fin 64} {x : Tag} (h : EntriesTracked s)
    (hx : ∀ i, heldFor i x = heldFor i s.tags[u]) :
    EntriesTracked { s with tags := s.tags.set u x } := by
  refine entriesTracked_of_owned h rfl rfl rfl fun i => ?_
  have hown := State.owned_set (s := s) (t := { s with tags := s.tags.set u x }) rfl i
  rw [hx i] at hown
  exact Nat.add_right_cancel hown

theorem entriesTracked_fill {i : Fin 32} {e : Entry} (buffer : List Word) (h : EntriesTracked s)
    (he : s.entries[i] = some e) :
    EntriesTracked { s with entries := s.entries.set i (some { e with buffer := buffer }) } := by
  refine entriesTracked_change (i := i) h h.1 (fun j hj => get_set_ne _ _ (Ne.symm hj))
    (fun _ _ => Iff.rfl) (fun _ _ => rfl) (fun _ _ ho => ho) ?_
  refine show EntryTracked (s.entries.set i (some { e with buffer := buffer }))[i] _ _ _ from ?_
  rw [get_set_self]
  obtain ⟨h1, h2, h3, h4⟩ := he ▸ h.2 i
  exact ⟨h1, h2, h3, h4⟩

end

theorem entriesTracked_reset (s : State) (m : Bool) : EntriesTracked (s.hardwareReset m) := by
  refine ⟨List.nodup_nil, fun i => ?_⟩
  have hentry : (s.hardwareReset m).entries[i] = none := by
    simp [State.hardwareReset, State.reset]
  have hown : (s.hardwareReset m).owned i = 0 := by
    rw [State.owned_eq]
    refine List.countP_eq_zero.2 fun x hx => ?_
    have : x = .free := by
      simpa [State.hardwareReset, State.reset] using hx
    rw [this]
    exact Bool.false_ne_true
  rw [hentry]
  exact .of_none nofun hown nofun

theorem Move.keeps_entriesTracked {s t : State} (m : Move s t) (h : EntriesTracked s) :
    EntriesTracked t := by
  cases m with
  | offerFault f =>
    obtain ⟨_, _, _, _, _, heq⟩ := s.offerFault_frame f
    exact heq ▸ h
  | offerNotice b =>
    obtain ⟨_, _, heq⟩ := s.offerNotice_frame b
    exact heq ▸ h
  | complete trn status payload =>
    obtain ⟨_, _, _, heq⟩ := s.completeDeferred_frame trn status payload
    exact heq ▸ h
  | write id =>
    rw [State.setCopy_eq]
    exact h
  | offer => exact entriesTracked_offer h
  | deny hp hi hs => exact entriesTracked_deny h hi hs
  | queue hp hi hs => exact entriesTracked_queue _ h hi hs
  | deliver ho => exact entriesTracked_deliver h ho rfl rfl rfl rfl
  | deliverCounted ho => exact entriesTracked_deliver h ho rfl rfl rfl rfl
  | deliverLast ho => exact entriesTracked_deliver h ho rfl rfl rfl rfl
  | take hq he hs hw hp hl hd hf => exact entriesTracked_take h hq hs hp hl hd hf
  | drawSweep ht hr ho =>
    refine entriesTracked_setTag h fun i => ?_
    rw [ht, heldFor_sweep ho]
    rfl
  | issue ht =>
    refine entriesTracked_setTag h fun i => ?_
    rw [ht]
    rfl
  | answer ht ho he hx st => exact entriesTracked_answer h ht ho he hx st
  | @settle u x hx hn =>
    refine entriesTracked_setTag h fun i => ?_
    rw [heldFor_of_not_inUse hx, eq_comm, Bool.eq_false_iff]
    intro hheld
    have hnone := hn i (by rw [State.ownedBy_eq, hheld])
    have hzero := (hnone ▸ h.2 i).of_free.2.1
    have := State.one_le_owned hheld
    omega
  | fill buffer he => exact entriesTracked_fill buffer h he
  | reset m => exact entriesTracked_reset s m
  | untracked | popFault | clearFaults | count | reply | register | receive | lineBreak | sendReply
  | skipReply | sendNotice | endReply | endPacket | mark | define | enable | disable | drain
  | startSweep | advance | stopSweep | startCapture | sample | stopCapture | enter | load | status
  | commit => exact h

/-! ### Deadlines -/

section
variable {s t : State}

/-- No deadline stands that the microsecond base has reached (R143). -/
abbrev NoneReached (s : State) : Prop := DeadlinesFrom s (s.usBase + 1)

/-- No deadline comes new. -/
theorem noneReached_of {s t : State} (h : NoneReached s) (hb : t.usBase = s.usBase)
    (ht : ∀ u : Fin 64, ∀ d ∈ t.tagDeadline u, d ∈ s.tagDeadline u)
    (hc : t.captures = s.captures) (hr : t.rx = s.rx) : NoneReached t := by
  obtain ⟨h1, h2, h3⟩ := h
  refine ⟨fun u d hd => ?_, ?_, ?_⟩
  · rw [hb]
    exact h1 u d (ht u d hd)
  · rw [hb, hc]
    exact h2
  · rw [hb, hr]
    exact h3

/-- One tag changes, and with no deadline that has been reached. -/
theorem noneReached_setTag {u : Fin 64} {x : Tag} (h : NoneReached s)
    (ht : t.tags = s.tags.set u x) (hx : ∀ d ∈ x.deadline, s.usBase < d) (hb : t.usBase = s.usBase)
    (hc : t.captures = s.captures) (hr : t.rx = s.rx) : NoneReached t := by
  obtain ⟨h1, h2, h3⟩ := h
  refine ⟨fun v d hd => ?_, by rw [hb, hc]; exact h2, by rw [hb, hr]; exact h3⟩
  rw [State.tagDeadline_eq, ht, get_set] at hd
  rw [hb]
  split at hd
  · exact hx d hd
  · exact h1 v d (by rw [State.tagDeadline_eq]; exact hd)

/-- One capture context changes, and with no deadline that has been reached. -/
theorem noneReached_setCapture {w : Fin 16} {c : Option Capture} (h : NoneReached s)
    (hc : t.captures = s.captures.set w c)
    (hk : ∀ k ∈ c, k.count < 2 ^ k.n → s.usBase < 1000 * k.deadline) (hb : t.usBase = s.usBase)
    (ht : t.tags = s.tags) (hr : t.rx = s.rx) : NoneReached t := by
  obtain ⟨h1, h2, h3⟩ := h
  refine ⟨fun v d hd => ?_, fun v k hv hn => ?_, by rw [hb, hr]; exact h3⟩
  · rw [State.tagDeadline_eq, ht, ← State.tagDeadline_eq] at hd
    rw [hb]
    exact h1 v d hd
  · rw [hc, get_set] at hv
    rw [hb]
    split at hv
    · exact hk k hv hn
    · exact h2 v k hv hn

end

theorem noneReached_reset (s : State) (m : Bool) : NoneReached (s.hardwareReset m) := by
  refine ⟨fun u d hd => ?_, fun w k hk => ?_, fun hr => absurd rfl hr⟩
  · rw [State.tagDeadline_eq] at hd
    simp [State.hardwareReset, State.reset, Tag.deadline] at hd
  · simp [State.hardwareReset, State.reset] at hk

theorem Move.keeps_noneReached {s t : State} (m : Move s t) (h : NoneReached s) : NoneReached t := by
  cases m with
  | offerFault f =>
    obtain ⟨_, _, _, _, _, heq⟩ := s.offerFault_frame f
    exact heq ▸ h
  | offerNotice b =>
    obtain ⟨_, _, heq⟩ := s.offerNotice_frame b
    exact heq ▸ h
  | complete trn status payload =>
    obtain ⟨_, _, _, heq⟩ := s.completeDeferred_frame trn status payload
    exact heq ▸ h
  | offer =>
    obtain ⟨_, heq⟩ := s.offerResponse_frame
    exact heq ▸ h
  | write id =>
    rw [State.setCopy_eq]
    exact h
  | @receive r hr =>
    refine ⟨h.1, h.2.1, fun hn => ?_⟩
    have hat := hr.resolve_left hn
    show s.usBase + 1 ≤ r.lastAt + 2000
    omega
  | startCapture trn hs ha hd =>
    refine noneReached_setCapture h rfl (fun k hk _ => ?_) rfl rfl rfl
    exact Option.some.inj hk ▸ hd
  | @sample w c acc hc hn =>
    refine noneReached_setCapture h rfl (fun k hk _ => ?_) rfl rfl rfl
    have := h.2.1 w c hc ((Nat.lt_succ_self _).trans hn)
    exact Option.some.inj hk ▸ this
  | stopCapture => exact noneReached_setCapture h rfl (fun _ hk => nomatch hk) rfl rfl rfl
  | @take i rest e e' l hq he hs hw hp hl hd hf =>
    have htags := State.tagDeadline_drawTags l s fun p hp => (hf p hp).2.1
    obtain ⟨ts, heq⟩ := s.drawTags_frame l
    rw [heq] at htags ⊢
    exact noneReached_of h rfl htags rfl rfl
  | drawSweep ht hr =>
    refine noneReached_setTag h rfl (fun d hd => ?_) rfl rfl rfl
    rw [Tag.deadline_of_unissued hr] at hd
    cases hd
  | issue ht hd => exact noneReached_setTag h rfl hd rfl rfl rfl
  | answer ht ho he hx =>
    refine noneReached_setTag h rfl (fun d hd => ?_) rfl rfl rfl
    rw [Tag.deadline_of_not_inUse hx] at hd
    cases hd
  | settle hx =>
    refine noneReached_setTag h rfl (fun d hd => ?_) rfl rfl rfl
    rw [Tag.deadline_of_not_inUse hx] at hd
    cases hd
  | load =>
    refine ⟨h.1, fun w k hk => ?_, h.2.2⟩
    simp [State.loadImage] at hk
  | reset m => exact noneReached_reset s m
  | untracked | popFault | clearFaults | count | reply | register | lineBreak | sendReply
  | skipReply | sendNotice | endReply | endPacket | mark | define | enable | disable | drain
  | startSweep | advance | stopSweep | deny | queue | deliver | deliverCounted | deliverLast | fill
  | enter | status | commit => exact h

/-- The step of the base leaves no deadline reached (R143). -/
theorem noneReached_timebaseIncrement {s t : State} {early late : List StepEvent}
    (h : execTimebaseIncrement s early late = .next t) : NoneReached t := by
  unfold execTimebaseIncrement at h
  injection h with h
  subst h
  obtain ⟨hd, hb, _⟩ := State.passDeadlines_keeps
    (late.foldl State.takeEvent ((early.foldl State.takeEvent s.stepBase).countEvent .internal))
  rw [NoneReached, hb]
  exact hd

theorem step_keeps_noneReached {s t : State} (hs : NoneReached s) (h : step s = .next t) :
    NoneReached t := by
  unfold step at h
  split at h
  · injection h with h
    exact h ▸ hs
  · rename_i c rest _
    by_cases hc : ∃ early late, c = .timebaseIncrement early late
    · obtain ⟨early, late, rfl⟩ := hc
      exact noneReached_timebaseIncrement h
    · exact (exec_moves (fun early late he => hc ⟨early, late, he⟩) h).keep
        (fun _ _ m => m.keeps_noneReached) hs

/-- Settles O58: every change keeps the entries, the intake queue, the tags and the offer sound and
brings no deadline that has been reached, and every step of the base passes those it reaches. -/
theorem trackingStaysSound : Obligations.TrackingStaysSound := by
  intro s t hs h
  rw [trackingSound_iff] at hs ⊢
  exact ⟨step_keeps (fun _ _ h => h) (fun _ h => h) (fun _ _ m => m.keeps_entriesTracked) hs.1 h,
    step_keeps_noneReached hs.2 h⟩

end Sys2Proof.Machine

/-! PROOFS. The layout of a boot image (section 12.6): a payload written is read back. -/

namespace Sys2Proof.Machine

/-! ### Fields at their offsets -/

theorem byteAt_drop (p : List Byte) (i j : Nat) : byteAt (p.drop i) j = byteAt p (i + j) := by
  simp [byteAt, List.getD]

theorem byteAt_take {p : List Byte} {n j : Nat} (h : j < n) : byteAt (p.take n) j = byteAt p j := by
  simp [byteAt, List.getD, h]

theorem byteAt_append_length (p q : List Byte) (i : Nat) :
    byteAt (p ++ q) (p.length + i) = byteAt q i := by
  simp [byteAt, List.getD, List.getElem?_append_right]

theorem halfAt_append_length (p q : List Byte) (i : Nat) :
    halfAt (p ++ q) (p.length + i) = halfAt q i := by
  rw [halfAt, halfAt, byteAt_append_length, Nat.add_assoc, byteAt_append_length]

/-- A two-byte field at the head of a payload is read back (R190). -/
theorem halfAt_le16_append (v : Half) (p : List Byte) : halfAt (le16 v ++ p) 0 = v :=
  half_of_bytes v

/-- A record lies in a run of records of one length. -/
theorem drop_take_flatMap {α : Type} {f : α → List Byte} {k : Nat} (hf : ∀ a, (f a).length = k)
    (l : List α) (i : Nat) (hi : i < l.length) : ((l.flatMap f).drop (k * i)).take k = f l[i] := by
  induction l generalizing i with
  | nil => cases hi
  | cons a l ih =>
    rw [List.flatMap_cons]
    cases i with
    | zero => rw [Nat.mul_zero, List.drop_zero, List.take_left' (hf a), List.getElem_cons_zero]
    | succ i =>
      rw [Nat.mul_succ, Nat.add_comm, ← List.drop_drop, List.drop_left' (hf a),
        List.getElem_cons_succ]
      exact ih i (Nat.lt_of_succ_lt_succ hi)

/-- The length of a run of records of one length. -/
theorem length_flatMap_const {α : Type} {f : α → List Byte} {k : Nat} (hf : ∀ a, (f a).length = k)
    (l : List α) : (l.flatMap f).length = k * l.length := by
  induction l with
  | nil => rfl
  | cons a l ih => rw [List.flatMap_cons, List.length_append, hf, ih, List.length_cons, Nat.mul_succ,
      Nat.add_comm]

/-! ### Channel records -/

/-- The 8 bytes of slot i of a window record's channel records (R197). -/
def chanSlot (chans : List ChanRec) (i : Nat) : List Byte :=
  match chans[i]? with
  | some c => chanBytes c
  | none => zeros 8

theorem chansBytes_eq (chans : List ChanRec) :
    chansBytes chans = (List.range 4).flatMap (chanSlot chans) := rfl

theorem chanSlot_length (chans : List ChanRec) (i : Nat) : (chanSlot chans i).length = 8 := by
  unfold chanSlot
  cases chans[i]? <;> rfl

theorem chansBytes_length (chans : List ChanRec) : (chansBytes chans).length = 32 := by
  rw [chansBytes_eq, length_flatMap_const (chanSlot_length chans)]
  rfl

theorem readChan_chanBytes (c : ChanRec) : readChan (chanBytes c) 0 = c := by
  have h1 : halfAt (chanBytes c) 0 = c.gain := half_of_bytes _
  have h2 : halfAt (chanBytes c) 2 = c.offset := half_of_bytes _
  have h3 : halfAt (chanBytes c) 4 = c.low := half_of_bytes _
  have h4 : halfAt (chanBytes c) 6 = c.high := half_of_bytes _
  rw [readChan, h1, h2, h3, h4]

/-- A channel record is read from its 8 bytes. -/
theorem readChan_eq (p : List Byte) (i : Nat) : readChan p i = readChan ((p.drop i).take 8) 0 := by
  have hbyte {j : Nat} (hj : j < 8) : byteAt ((p.drop i).take 8) j = byteAt p (i + j) := by
    rw [byteAt_take hj, byteAt_drop]
  simp only [readChan, halfAt, Nat.zero_add, Nat.add_assoc]
  rw [hbyte (by omega), hbyte (by omega), hbyte (by omega), hbyte (by omega), hbyte (by omega),
    hbyte (by omega), hbyte (by omega), hbyte (by omega)]
  rfl

/-- A channel record is read back from its slot. -/
theorem readChan_chansBytes {chans : List ChanRec} {i : Nat} (h : i < chans.length) (h4 : i < 4) :
    readChan (chansBytes chans) (8 * i) = chans[i] := by
  rw [readChan_eq, chansBytes_eq,
    drop_take_flatMap (chanSlot_length chans) (List.range 4) i (by simpa using h4),
    List.getElem_range]
  unfold chanSlot
  rw [List.getElem?_eq_getElem h]
  exact readChan_chanBytes _

/-! ### Enumerated fields and flags -/

theorem decodeMode_code (m : Mode) : decodeMode m.code = some m := by cases m <;> rfl

theorem decodeFormat_code (f : RawFormat) : decodeFormat f.code = some f := by cases f <;> rfl

theorem decodeDirection_code (d : Direction) : decodeDirection d.code = some d := by cases d <;> rfl

theorem decodeMonMode_code (m : MonMode) : decodeMonMode m.code = some m := by cases m <;> rfl

theorem decodeSource_code (x : TbSource) : decodeSource x.code = some x := by cases x <;> rfl

theorem decodeEdge_code (e : Edge) : decodeEdge (edgeCode e) = some e := by cases e <;> rfl

theorem flagBits_two (a b : Bool) :
    (flagBits [a, b]).getLsbD 0 = a ∧ (flagBits [a, b]).getLsbD 1 = b := by
  cases a <;> cases b <;> decide

theorem u8_toNat {n : Nat} (h : n < 256) : (u8 n).toNat = n := by
  rw [u8, BitVec.toNat_ofNat]
  exact Nat.mod_eq_of_lt h

theorem ofNat16_toNat {n : Nat} (h : n < 65536) : (BitVec.ofNat 16 n).toNat = n := by
  rw [BitVec.toNat_ofNat]
  exact Nat.mod_eq_of_lt h

/-! ### Window records -/

theorem windowBytes_length (w : BootWindow) : (windowBytes w).length = 46 := by
  simp [windowBytes, le32, u16, le16, chansBytes_length]

theorem BootWindow.eq_of_fields {x y : BootWindow} (hd : x.defn = y.defn) (hc : x.chans = y.chans)
    (he : x.enabled = y.enabled) : x = y := by
  cases x
  cases y
  exact (BootWindow.mk.injEq ..).mpr ⟨hd, hc, he⟩

/-- The fields of a window record stand before its channel records. -/
theorem windowBytes_eq (w : BootWindow) : ∃ p : List Byte, p.length = 14 ∧
    windowBytes w = p ++ chansBytes w.chans :=
  ⟨_, rfl, rfl⟩

/-- A definition is read back from its window record. -/
theorem readWindow_defn {w : BootWindow} (hp : w.defn.pages < 65536) (hc : w.defn.count < 256) :
    (readWindow (windowBytes w)).defn = w.defn := by
  have hbase : wordAt (windowBytes w) 0 = w.defn.base := word_of_bytes _
  have hpages : (halfAt (windowBytes w) 4).toNat = w.defn.pages :=
    (congrArg BitVec.toNat (half_of_bytes _)).trans (ofNat16_toNat hp)
  have hmode : byteAt (windowBytes w) 6 = w.defn.mode.code := rfl
  have hformat : byteAt (windowBytes w) 7 = w.defn.format.code := rfl
  have hcount : byteAt (windowBytes w) 8 = u8 w.defn.count := rfl
  have hflags : byteAt (windowBytes w) 9 = flagBits [w.defn.shadow.isSome, w.enabled] := rfl
  have hshadow : wordAt (windowBytes w) 10 = w.defn.shadow.getD 0 := word_of_bytes _
  have hsome : (if w.defn.shadow.isSome = true then some (w.defn.shadow.getD 0) else none)
      = w.defn.shadow := by
    cases w.defn.shadow <;> rfl
  simp only [readWindow, hbase, hpages, hmode, hformat, hcount, hflags, hshadow, decodeMode_code,
    decodeFormat_code, Option.getD_some, u8_toNat hc, (flagBits_two _ _).1, hsome]

theorem readWindow_enabled (w : BootWindow) : (readWindow (windowBytes w)).enabled = w.enabled :=
  (flagBits_two _ _).2

/-- The channel records below the count are read back from their window record. -/
theorem readWindow_chans {w : BootWindow} (hc : w.defn.count ≤ 4)
    (hl : w.chans.length = w.defn.count) : (readWindow (windowBytes w)).chans = w.chans := by
  have hcount : (byteAt (windowBytes w) 8).toNat = w.chans.length :=
    (u8_toNat (n := w.defn.count) (by omega)).trans hl.symm
  have hmin : min w.chans.length 4 = w.chans.length := by omega
  obtain ⟨p, hp, hw⟩ := windowBytes_eq w
  rw [readWindow, hcount, hmin]
  refine List.ext_getElem (by simp) fun i _ hi => ?_
  have hdrop : (windowBytes w).drop (14 + 8 * i) = (chansBytes w.chans).drop (8 * i) := by
    rw [hw, ← List.drop_drop, List.drop_left' hp]
  rw [List.getElem_map, List.getElem_range, readChan_eq, hdrop, ← readChan_eq]
  exact readChan_chansBytes hi (by omega)

/-! ### Monitor records -/

theorem monitorBytes_length (m : Option MonBind) : (monitorBytes m).length = 9 := by
  cases m <;> rfl

/-- A monitor is read back from its record. -/
theorem readMonitor_monitorBytes {m : Option MonBind}
    (h : ∀ b, m = some b → b.channel < 256 ∧ b.hysteresis < 65536) :
    readMonitor (monitorBytes m) = m := by
  cases m with
  | none => rfl
  | some b =>
    obtain ⟨hc, hh⟩ := h b rfl
    obtain ⟨window, channel, level, hysteresis, direction, mode⟩ := b
    have hlevel : halfAt (monitorBytes (some ⟨window, channel, level, hysteresis, direction, mode⟩)) 3
        = level := half_of_bytes _
    have hhyst : halfAt (monitorBytes (some ⟨window, channel, level, hysteresis, direction, mode⟩)) 5
        = BitVec.ofNat 16 hysteresis := half_of_bytes _
    have hwindow : Fin.ofNat 16 (u8 window.val).toNat = window := by
      rw [u8_toNat (by omega)]
      exact Fin.ofNat_val_eq_self window
    have hdir : decodeDirection
        (byteAt (monitorBytes (some ⟨window, channel, level, hysteresis, direction, mode⟩)) 7)
        = some direction := decodeDirection_code direction
    have hmode : decodeMonMode
        (byteAt (monitorBytes (some ⟨window, channel, level, hysteresis, direction, mode⟩)) 8)
        = some mode := decodeMonMode_code mode
    rw [readMonitor, hlevel, hhyst, hdir, hmode, ofNat16_toNat hh,
      show byteAt (monitorBytes (some ⟨window, channel, level, hysteresis, direction, mode⟩)) 1
        = u8 window.val from rfl, hwindow,
      show byteAt (monitorBytes (some ⟨window, channel, level, hysteresis, direction, mode⟩)) 2
        = u8 channel from rfl, u8_toNat hc]
    exact if_pos (show (1 : Byte).getLsbD 0 = true by decide)

/-! ### Images -/

/-- The window records of an image, and those of its monitors. -/
theorem encodeImage_eq (i : BootImage) : ∃ W M : List Byte,
    W = i.windows.toList.flatMap windowBytes ∧ M = i.monitors.toList.flatMap monitorBytes
      ∧ W.length = 736 ∧ M.length = 144
      ∧ encodeImage i = W ++ (M ++ ([i.source.code, edgeCode i.edge] ++ le16 i.limit)) := by
  refine ⟨_, _, rfl, rfl, ?_, ?_, ?_⟩
  · rw [length_flatMap_const windowBytes_length, Vector.length_toList]
  · rw [length_flatMap_const monitorBytes_length, Vector.length_toList]
  · simp only [encodeImage, List.append_assoc]

theorem encodeImage_length (i : BootImage) : (encodeImage i).length = 884 := by
  obtain ⟨W, M, _, _, hW, hM, he⟩ := encodeImage_eq i
  rw [he]
  simp [hW, hM, le16]

/-- A window record lies where an image is read. -/
theorem windowBytes_of_encodeImage (i : BootImage) (w : Fin 16) :
    ((encodeImage i).drop (46 * w.val)).take 46 = windowBytes i.windows[w] := by
  obtain ⟨W, M, hWe, _, hW, _, he⟩ := encodeImage_eq i
  have hw := w.isLt
  rw [he, List.drop_append_of_le_length (by omega), List.take_append_of_le_length
    (by rw [List.length_drop]; omega), hWe,
    drop_take_flatMap windowBytes_length _ w.val (by simp)]
  simp

/-- A monitor record lies where an image is read. -/
theorem monitorBytes_of_encodeImage (i : BootImage) (m : Fin 16) :
    ((encodeImage i).drop (736 + 9 * m.val)).take 9 = monitorBytes i.monitors[m] := by
  obtain ⟨W, M, _, hMe, hW, hM, he⟩ := encodeImage_eq i
  have hm := m.isLt
  rw [he, ← List.drop_drop, List.drop_left' hW, List.drop_append_of_le_length (by omega),
    List.take_append_of_le_length (by rw [List.length_drop]; omega), hMe,
    drop_take_flatMap monitorBytes_length _ m.val (by simp)]
  simp

theorem decodeImage_encodeImage_window (i : BootImage) (w : Fin 16) :
    (decodeImage (encodeImage i)).windows[w] = readWindow (windowBytes i.windows[w]) := by
  rw [← windowBytes_of_encodeImage i w]
  simp [decodeImage]

theorem decodeImage_encodeImage_monitor (i : BootImage) (m : Fin 16) :
    (decodeImage (encodeImage i)).monitors[m] = readMonitor (monitorBytes i.monitors[m]) := by
  rw [← monitorBytes_of_encodeImage i m]
  simp [decodeImage]

/-- The timebase settings and the limit are read back. -/
theorem decodeImage_encodeImage_settings (i : BootImage) :
    (decodeImage (encodeImage i)).source = i.source ∧ (decodeImage (encodeImage i)).edge = i.edge
      ∧ (decodeImage (encodeImage i)).limit = i.limit := by
  obtain ⟨W, M, _, _, hW, hM, he⟩ := encodeImage_eq i
  rw [← List.append_assoc] at he
  have hWM : (W ++ M).length = 880 := by rw [List.length_append, hW, hM]
  have hsource : byteAt (encodeImage i) 880 = i.source.code := by
    rw [he, ← hWM]
    exact byteAt_append_length _ _ 0
  have hedge : byteAt (encodeImage i) 881 = edgeCode i.edge := by
    rw [he, show 881 = (W ++ M).length + 1 by rw [hWM], byteAt_append_length]
    rfl
  have hlimit : halfAt (encodeImage i) 882 = i.limit := by
    rw [he, show 882 = (W ++ M).length + 2 by rw [hWM], halfAt_append_length]
    exact half_of_bytes _
  simp only [decodeImage, hsource, hedge, hlimit, decodeSource_code, decodeEdge_code,
    Option.getD_some, and_self]

/-- Settles O53: every record lies at its offset, and each is read back. -/
theorem bootImageRoundTrip : Obligations.BootImageRoundTrip := by
  intro i hw hm
  refine ⟨encodeImage_length i, ?_⟩
  have hwindows : (decodeImage (encodeImage i)).windows = i.windows := by
    refine Vector.ext fun n hn => ?_
    obtain ⟨hpages, hcount, hlen⟩ := hw ⟨n, hn⟩
    have h4 : i.windows[(⟨n, hn⟩ : Fin 16)].defn.count ≤ 4 := by omega
    refine (decodeImage_encodeImage_window i ⟨n, hn⟩).trans ?_
    have hdefn := readWindow_defn hpages (by omega)
    have hchans := readWindow_chans h4 hlen
    have henabled := readWindow_enabled i.windows[(⟨n, hn⟩ : Fin 16)]
    exact BootWindow.eq_of_fields hdefn hchans henabled
  have hmonitors : (decodeImage (encodeImage i)).monitors = i.monitors :=
    Vector.ext fun n hn => (decodeImage_encodeImage_monitor i ⟨n, hn⟩).trans
      (readMonitor_monitorBytes (hm ⟨n, hn⟩))
  obtain ⟨hsource, hedge, hlimit⟩ := decodeImage_encodeImage_settings i
  obtain ⟨windows, monitors, source, edge, limit⟩ := i
  exact (BootImage.mk.injEq ..).mpr ⟨hwindows, hmonitors, hsource, hedge, hlimit⟩

end Sys2Proof.Machine

/-! PROOFS. The overlap law and the boot store (sections 1.4, 1.5, 11.1): every change keeps them sound,
and so every step. The state after reset satisfies every invariant. -/

namespace Sys2Proof.Machine

/-- A valid copy holds a sound image (R179). -/
abbrev CopySound (c : BootCopy) : Prop := c.valid = true → ImageSound (decodeImage c.payload)

/-- The boot store's part of the overlap law (R179). -/
structure StoreSound (s : State) : Prop where
  copyA : CopySound s.copyA
  copyB : CopySound s.copyB
  commit : ∀ p, s.boot.commit = some p → ImageSound p.image

/-- The window table's part of the overlap law (R9, R13). -/
structure TableSound (s : State) : Prop where
  acceptable : ∀ v : Fin 16, s.windows[v].defn.acceptable = true
  apart : ∀ v w : Fin 16, v ≠ w → s.windows[v].inService = true → s.windows[w].inService = true →
    s.windows[v].defn.meets s.windows[w].defn = false

theorem overlapSound_iff (s : State) : OverlapSound s ↔ TableSound s ∧ StoreSound s := by
  constructor
  · rintro ⟨h1, h2, h3, h4, h5⟩
    exact ⟨⟨h1, h2⟩, ⟨h3, h4, h5⟩⟩
  · rintro ⟨⟨h1, h2⟩, ⟨h3, h4, h5⟩⟩
    exact ⟨h1, h2, h3, h4, h5⟩

/-! ### Images -/

/-- An acceptable definition keeps within the widths of its window record (R13, R197). -/
theorem WindowDef.widths_of_acceptable {d : WindowDef} (h : d.acceptable = true) :
    d.pages < 65536 ∧ d.count < 256 := by
  simp only [WindowDef.acceptable, Bool.and_eq_true, Bool.or_eq_true, decide_eq_true_eq] at h
  omega

/-- A sound image is read back sound from its layout (R179, R197). -/
theorem ImageSound.decode_encode {i : BootImage} (h : ImageSound i) :
    ImageSound (decodeImage (encodeImage i)) := by
  have hdefn (v : Fin 16) : (decodeImage (encodeImage i)).windows[v].defn = i.windows[v].defn := by
    obtain ⟨hp, hc⟩ := WindowDef.widths_of_acceptable (h.1 v)
    rw [decodeImage_encodeImage_window]
    exact readWindow_defn hp hc
  have henabled (v : Fin 16) :
      (decodeImage (encodeImage i)).windows[v].enabled = i.windows[v].enabled := by
    rw [decodeImage_encodeImage_window]
    exact readWindow_enabled _
  refine ⟨fun v => ?_, fun v w hvw hv hw => ?_⟩
  · rw [hdefn]
    exact h.1 v
  · rw [henabled] at hv hw
    rw [hdefn, hdefn]
    exact h.2 v w hvw hv hw

theorem imageSound_default : ImageSound defaultImage := by
  have hwin (v : Fin 16) : defaultImage.windows[v] = ⟨.default, [.default], false⟩ := by
    simp [defaultImage]
  refine ⟨fun v => ?_, fun v w _ hv => ?_⟩
  · rw [hwin]
    decide
  · rw [hwin] at hv
    cases hv

/-- A copy without the marker is not valid (R178). -/
theorem copySound_of_marker {c : BootCopy} (h : c.marker ≠ bootMarker) : CopySound c := by
  intro hv
  rw [BootCopy.valid, Bool.and_eq_true, decide_eq_true_eq] at hv
  exact absurd hv.1 h

/-- A copy written from a sound image. -/
theorem copySound_of_image {c : BootCopy} {i : BootImage} (hi : ImageSound i)
    (hc : c.payload = encodeImage i) : CopySound c := by
  intro _
  rw [hc]
  exact hi.decode_encode

/-! ### The window table -/

section
variable {s t : State}

/-- One window changes, and conflicts with none that is in service. -/
theorem tableSound_setWindow {w : Fin 16} {x : Window} (h : TableSound s)
    (ht : t.windows = s.windows.set w x) (ha : x.defn.acceptable = true)
    (hx : x.inService = true → ∀ v : Fin 16, v ≠ w → s.windows[v].inService = true →
      x.defn.meets s.windows[v].defn = false) : TableSound t := by
  refine ⟨fun v => ?_, fun v u hvu hv hu => ?_⟩
  · rw [ht, get_set]
    split
    · exact ha
    · exact h.acceptable v
  · rw [ht, get_set] at hv hu ⊢
    rw [get_set]
    by_cases hwv : w = v
    · subst hwv
      rw [if_pos rfl] at hv ⊢
      rw [if_neg hvu] at hu ⊢
      exact hx hv u hvu.symm hu
    · rw [if_neg hwv] at hv ⊢
      by_cases hwu : w = u
      · subst hwu
        rw [if_pos rfl] at hu ⊢
        rw [meets_comm]
        exact hx hu v hvu hv
      · rw [if_neg hwu] at hu ⊢
        exact h.apart v u hvu hv hu

/-- A window changes, its definition stays, and it comes into service only if it was. -/
theorem tableSound_sameDefn {w : Fin 16} {x : Window} (h : TableSound s)
    (ht : t.windows = s.windows.set w x) (hd : x.defn = s.windows[w].defn)
    (hx : x.inService = true → s.windows[w].inService = true) : TableSound t := by
  refine tableSound_setWindow h ht (hd ▸ h.acceptable w) fun hs v hv hvs => ?_
  rw [hd]
  exact h.apart w v hv.symm (hx hs) hvs

/-- A window without a conflict meets none that is in service (R9). -/
theorem State.conflicts_eq_false {w : Fin 16} (h : s.conflicts w = false) (v : Fin 16) (hv : v ≠ w)
    (hs : s.windows[v].inService = true) :
    s.windows[w].defn.meets s.windows[v].defn = false := by
  rw [State.conflicts, List.any_eq_false] at h
  have := h v (List.mem_finRange v)
  simpa only [Bool.not_eq_true, ne_eq, hv, not_false_eq_true, decide_true, hs, Bool.true_and]
    using this

theorem Window.inService_eq_false {x : Window} (h : x.state = .disabled) : x.inService = false := by
  rw [Window.inService, h]
  rfl

theorem Window.inService_of_ne {x : Window} (h : x.state ≠ .disabled) : x.inService = true := by
  simpa [Window.inService] using h

/-- A loaded table is its image's (R1). -/
theorem tableSound_load {i : BootImage} (h : ImageSound i) : TableSound (s.loadImage i) := by
  have hwin (v : Fin 16) : (s.loadImage i).windows[v] = i.windows[v].load := by
    simp [State.loadImage]
  have hen (b : BootWindow) (hs : b.load.inService = true) : b.enabled = true := by
    by_contra hn
    rw [Window.inService_eq_false (x := b.load) (if_neg hn)] at hs
    cases hs
  refine ⟨fun v => ?_, fun v w hvw hv hw => ?_⟩
  · rw [hwin]
    exact h.1 v
  · rw [hwin] at hv hw
    rw [hwin, hwin]
    exact h.2 v w hvw (hen _ hv) (hen _ hw)

theorem tableSound_reset (s : State) (m : Bool) : TableSound (s.hardwareReset m) := by
  have hwin (v : Fin 16) : (s.hardwareReset m).windows[v] = .default := by
    simp [State.hardwareReset, State.reset]
  refine ⟨fun v => ?_, fun v w _ hv => ?_⟩
  · rw [hwin]
    decide
  · rw [hwin] at hv
    cases hv

/-! ### The boot store -/

/-- One copy is replaced. -/
theorem storeSound_setCopy {id : CopyId} {c : BootCopy} (h : StoreSound s) (hc : CopySound c) :
    StoreSound (s.setCopy id c) := by
  cases id with
  | a => exact ⟨hc, h.copyB, h.commit⟩
  | b => exact ⟨h.copyA, hc, h.commit⟩

theorem storeSound_snapshot (h : TableSound s) : ImageSound s.snapshot := by
  have hwin (v : Fin 16) : s.snapshot.windows[v] =
      ⟨s.windows[v].defn, s.windows[v].chans, s.windows[v].state = .enabled⟩ := by
    simp [State.snapshot]
  have hen (v : Fin 16) (hv : s.snapshot.windows[v].enabled = true) :
      s.windows[v].inService = true := by
    rw [hwin, decide_eq_true_eq] at hv
    exact Window.inService_of_ne (by rw [hv]; nofun)
  refine ⟨fun v => ?_, fun v w hvw hv hw => ?_⟩
  · rw [hwin]
    exact h.acceptable v
  · have hmeets := h.apart v w hvw (hen v hv) (hen w hw)
    rw [hwin, hwin]
    exact hmeets

/-- The store after a reset: a pending commit whose marker has been written is done (R185). -/
theorem storeSound_resetStore (m : Bool) (h : StoreSound s) : StoreSound (s.resetStore m) := by
  unfold State.resetStore
  split
  · rename_i p hp
    split
    · exact storeSound_setCopy h (copySound_of_image (h.commit p hp) rfl)
    · exact h
  · exact h

theorem overlapSound_reset (m : Bool) (h : StoreSound s) : OverlapSound (s.hardwareReset m) := by
  obtain ⟨ha, hb, _⟩ := storeSound_resetStore m h
  exact (overlapSound_iff _).2 ⟨tableSound_reset s m, ⟨ha, hb, nofun⟩⟩

/-- What a load takes is sound. -/
theorem imageSound_loaded {i : BootImage} (h : StoreSound s)
    (hi : i = defaultImage
      ∨ ∃ id, (s.copy id).valid = true ∧ i = decodeImage (s.copy id).payload) : ImageSound i := by
  rcases hi with rfl | ⟨id, hv, rfl⟩
  · exact imageSound_default
  · cases id with
    | a => exact h.copyA hv
    | b => exact h.copyB hv

end

theorem Move.keeps_overlap {s t : State} (m : Move s t) (h : OverlapSound s) : OverlapSound t := by
  obtain ⟨ht, hs⟩ := (overlapSound_iff s).1 h
  have withTable {u : State} (hu : TableSound u) (hst : StoreSound u) : OverlapSound u :=
    (overlapSound_iff u).2 ⟨hu, hst⟩
  cases m with
  | offerFault f =>
    obtain ⟨_, _, _, _, _, heq⟩ := s.offerFault_frame f
    exact heq ▸ h
  | offerNotice b =>
    obtain ⟨_, _, heq⟩ := s.offerNotice_frame b
    exact heq ▸ h
  | complete trn status payload =>
    obtain ⟨_, _, _, heq⟩ := s.completeDeferred_frame trn status payload
    exact heq ▸ h
  | offer =>
    obtain ⟨_, heq⟩ := s.offerResponse_frame
    exact heq ▸ h
  | @take i rest e e' l =>
    obtain ⟨_, heq⟩ := s.drawTags_frame l
    rw [heq]
    exact h
  | mark => exact withTable (tableSound_sameDefn ht rfl rfl id) ⟨hs.1, hs.2, hs.3⟩
  | @define w d chans hd hacc =>
    refine withTable (tableSound_setWindow ht rfl hacc fun hx => ?_) ⟨hs.1, hs.2, hs.3⟩
    exact nomatch (Window.inService_eq_false hd).symm.trans hx
  | enable hd hc =>
    refine withTable (tableSound_setWindow ht rfl (ht.acceptable _) fun _ v hv hvs => ?_)
      ⟨hs.1, hs.2, hs.3⟩
    exact State.conflicts_eq_false hc v hv hvs
  | disable => exact withTable (tableSound_sameDefn ht rfl rfl nofun) ⟨hs.1, hs.2, hs.3⟩
  | drain trn hst =>
    refine withTable (tableSound_sameDefn ht rfl rfl fun _ => ?_) ⟨hs.1, hs.2, hs.3⟩
    exact Window.inService_of_ne (by rw [hst]; nofun)
  | startSweep => exact withTable (tableSound_sameDefn ht rfl rfl id) ⟨hs.1, hs.2, hs.3⟩
  | stopSweep => exact withTable (tableSound_sameDefn ht rfl rfl id) ⟨hs.1, hs.2, hs.3⟩
  | startCapture => exact withTable (tableSound_sameDefn ht rfl rfl id) ⟨hs.1, hs.2, hs.3⟩
  | stopCapture => exact withTable (tableSound_sameDefn ht rfl rfl id) ⟨hs.1, hs.2, hs.3⟩
  | @queue i e =>
    unfold queuedAs
    cases e.window with
    | none => exact h
    | some w => exact withTable (tableSound_sameDefn ht (w := w) rfl rfl id) ⟨hs.1, hs.2, hs.3⟩
  | deliverCounted => exact withTable (tableSound_sameDefn ht rfl rfl id) ⟨hs.1, hs.2, hs.3⟩
  | deliverLast => exact withTable (tableSound_sameDefn ht rfl rfl nofun) ⟨hs.1, hs.2, hs.3⟩
  | reset m => exact overlapSound_reset m hs
  | load _ hi => exact withTable (tableSound_load (imageSound_loaded hs hi)) ⟨hs.1, hs.2, hs.3⟩
  | status hb =>
    refine withTable ⟨ht.1, ht.2⟩ ⟨hs.1, hs.2, fun p hp => ?_⟩
    rcases hb with hb | hb
    · exact nomatch hb.symm.trans hp
    · exact hs.commit p (hb.symm.trans hp)
  | commit hp =>
    refine withTable ⟨ht.1, ht.2⟩ ⟨hs.1, hs.2, fun q hq => ?_⟩
    rw [← Option.some.inj hq, hp]
    exact storeSound_snapshot ht
  | write id hc =>
    have hcopy : CopySound _ := hc.elim copySound_of_marker fun ⟨p, hp, hpay⟩ =>
      copySound_of_image (hs.commit p hp) hpay
    refine withTable ?_ (storeSound_setCopy hs hcopy)
    rw [State.setCopy_eq]
    exact ⟨ht.1, ht.2⟩
  | untracked | popFault | clearFaults | count | reply | register | receive | lineBreak | sendReply
  | skipReply | sendNotice | endReply | endPacket | advance | sample | deny | deliver | drawSweep
  | issue | answer | settle | fill | enter => exact h

/-- Settles O59: every change keeps the windows in service apart and the boot store sound. -/
theorem overlapLawHolds : Obligations.OverlapLawHolds :=
  fun _ _ hs h => step_keeps (fun _ _ h => h) (fun _ h => h) (fun _ _ m => m.keeps_overlap) hs h

/-! ### The state after reset -/

/-- A reset of the part as it is after reset changes nothing. -/
theorem hardwareReset_reset : State.reset.hardwareReset false = State.reset := rfl

/-- The store as it leaves the factory is sound (R188). -/
theorem storeSound_factory : StoreSound State.reset :=
  ⟨copySound_of_image imageSound_default rfl, copySound_of_marker (by decide), nofun⟩

/-- Settles O60: the invariants hold after any reset. -/
theorem resetIsSound : Obligations.ResetIsSound := by
  unfold Obligations.ResetIsSound
  rw [← hardwareReset_reset]
  exact ⟨⟨Nat.zero_le 8, rfl, nofun⟩, linkSound_reset _ _, lifecycleSound_reset _ _,
    inFlightSound_reset _ _,
    (trackingSound_iff _).2 ⟨entriesTracked_reset _ _, noneReached_reset _ _⟩,
    overlapSound_reset _ storeSound_factory⟩

end Sys2Proof.Machine

/-! PROOFS. The step, start-up and the boot store (chapter 11). -/

namespace Sys2Proof.Machine

/-- Settles O1: both rows of `step`. -/
theorem stepRunsFrontCommand : Obligations.StepRunsFrontCommand :=
  ⟨fun _ _ _ h => by simp only [step, h], fun _ h => by simp only [step, h]⟩

/-! ### Reset, its end and the opening (R170, R180 to R182) -/

theorem copy_setCopy (s : State) (id id' : CopyId) (c : BootCopy) :
    (s.setCopy id c).copy id' = if id = id' then c else s.copy id' := by
  cases id <;> cases id' <;> rfl

/-- The copies after a reset (R178, R185). -/
theorem copy_resetStore (s : State) (m : Bool) (id : CopyId) : (s.resetStore m).copy id =
    match s.boot.commit with
    | some p => if m ∧ p.target = id then writtenCopy p.generation p.image else s.copy id
    | none => s.copy id := by
  unfold State.resetStore
  cases s.boot.commit with
  | none => rfl
  | some p =>
    cases m with
    | false => exact (if_neg fun h => Bool.false_ne_true h.1).symm
    | true =>
      refine (copy_setCopy s p.target id _).trans (if_congr ?_ rfl rfl)
      exact (and_iff_right rfl).symm

/-- Settles O2: each field of the state that a reset leaves. -/
theorem hardwareResetTakesResetValues : Obligations.HardwareResetTakesResetValues := by
  intro m s
  refine ⟨s.hardwareReset m, rfl, rfl, rfl, rfl, rfl, fun w => ?_, fun k => ?_, fun i => ?_, rfl, rfl,
    rfl, fun j => ?_, rfl, rfl, rfl, rfl, rfl, rfl, rfl, rfl, fun k => ?_, rfl, rfl, rfl, rfl, rfl,
    rfl, rfl, rfl, rfl, fun id => ?_⟩
  · have hwin : (s.hardwareReset m).windows[w] = .default := by
      simp [State.hardwareReset, State.reset]
    have hstats (c : Fin 4) : ((s.hardwareReset m).stats[w])[c] = .empty := by
      simp [State.hardwareReset, State.reset]
    have hcap : (s.hardwareReset m).captures[w] = none := by
      simp [State.hardwareReset, State.reset]
    rw [hwin]
    exact ⟨rfl, rfl, rfl, rfl, hcap, hstats⟩
  · have hmon : (s.hardwareReset m).monitors[k] = .unbound := by
      simp [State.hardwareReset, State.reset]
    rw [hmon]
    exact ⟨rfl, rfl, rfl⟩
  · simp [State.hardwareReset, State.reset]
  · simp [State.hardwareReset, State.reset]
  · simp [State.hardwareReset, State.reset]
  · have hcopy : (s.hardwareReset m).copy id = (s.resetStore m).copy id := by
      cases id <;> rfl
    exact hcopy.trans (copy_resetStore s m id)

namespace State

section
variable {s : State} {k : Fin 16} {ks : List (Fin 16)} {n : Notice} {ns : List Notice}

/-! ### The transmitter's choice: R169's table -/

theorem transmit_of_none (h : (s.tx.idles && s.linkReceives) = true) (hq : s.replyQueue = [])
    (hn : s.notices = []) : s.transmit = s := by
  rw [transmit, if_pos h, hq, hn]

theorem transmit_of_notice (h : (s.tx.idles && s.linkReceives) = true) (hq : s.replyQueue = [])
    (hn : s.notices = n :: ns) : s.transmit = s.sendNotice n ns := by
  rw [transmit, if_pos h, hq, hn]

theorem transmit_of_reply (h : (s.tx.idles && s.linkReceives) = true) (hq : s.replyQueue = k :: ks)
    (hn : s.notices = []) : s.transmit = s.sendReply k ks s.runCount := by
  rw [transmit, if_pos h, hq, hn]

theorem transmit_of_both (h : (s.tx.idles && s.linkReceives) = true) (hq : s.replyQueue = k :: ks)
    (hn : s.notices = n :: ns) : s.transmit =
      if s.runCount < 4 then s.sendReply k ks (s.runCount + 1) else s.sendNotice n ns := by
  rw [transmit, if_pos h, hq, hn]

theorem transmit_of_busy (h : (s.tx.idles && s.linkReceives) = false) : s.transmit = s := by
  rw [transmit, h]
  rfl

end

end State

/-- A request that meets a closed U port changes nothing (R37). -/
theorem execAcceptance_of_closed {s : State} (h : s.phase ≠ .serving) (r : HostRequest) :
    execAcceptance r s = .next s := by
  simp [execAcceptance, h]

/-- Settles O3: the stage each row meets decides it. -/
theorem resetEndAndOpening : Obligations.ResetEndAndOpening := by
  refine ⟨fun rate s h => ?_, fun s hp hb htx hq => ?_⟩
  · have hrun : exec (.resetEnd rate) s = .next { s with phase := .reading, linkRate := rate } :=
      congrArg Host.Outcome.next (if_pos h)
    refine ⟨hrun, fun t ht => ?_⟩
    rw [hrun] at ht
    injection ht with ht
    subst ht
    exact ⟨rfl, rfl, fun r => execAcceptance_of_closed (show Phase.reading ≠ .serving by decide) r⟩
  · have hopen : exec .opening s = .next
        ({ s.timeLine.dropPacket with phase := .serving } : State).transmit :=
      congrArg Host.Outcome.next (if_pos hp)
    have hfree : (({ s.timeLine.dropPacket with phase := .serving } : State).tx.idles
        && ({ s.timeLine.dropPacket with phase := .serving } : State).linkReceives) = true := by
      show (s.tx.idles && !s.breakLow) = true
      rw [htx, hb]
      rfl
    dsimp only
    refine ⟨fun hn => hopen.trans (congrArg Host.Outcome.next ?_),
      fun n ns hn => hopen.trans (congrArg Host.Outcome.next ?_)⟩
    · exact State.transmit_of_none hfree hq hn
    · exact State.transmit_of_notice hfree hq hn

/-! ### The load (R178, R181, R186) -/

/-- A copy, or what is left of it when it has been lost (R186). -/
def keptCopy (c : BootCopy) (lost : Bool) : BootCopy := if lost then { c with marker := 0 } else c

theorem keptCopy_payload (c : BootCopy) (lost : Bool) : (keptCopy c lost).payload = c.payload := by
  cases lost <;> rfl

theorem valid_of_marker_zero (c : BootCopy) : BootCopy.valid { c with marker := 0 } = false := by
  rw [BootCopy.valid, decide_eq_false (show (0 : Word) ≠ bootMarker by decide)]
  rfl

theorem keptCopy_validGeneration (c : BootCopy) (lost : Bool) :
    (keptCopy c lost).validGeneration = if c.valid && !lost then some c.generation else none := by
  unfold BootCopy.validGeneration keptCopy
  cases lost with
  | false => simp
  | true => simpa using valid_of_marker_zero c

theorem loseCopies_eq (s : State) (lostA lostB : Bool) : s.loseCopies lostA lostB =
    { s with copyA := keptCopy s.copyA lostA, copyB := keptCopy s.copyB lostB } := by
  cases lostA <;> cases lostB <;> rfl

/-- The status record that a load takes from the store (R178). -/
theorem boot_readStore_loseCopies (s : State) (lostA lostB : Bool) :
    (s.loseCopies lostA lostB).readStore.boot =
      ⟨if s.copyA.valid && !lostA then some s.copyA.generation else none,
        if s.copyB.valid && !lostB then some s.copyB.generation else none,
        if (s.copyA.valid && !lostA) && (!(s.copyB.valid && !lostB)
            || s.copyB.generation.toNat ≤ s.copyA.generation.toNat) then some .a
          else if s.copyB.valid && !lostB then some .b else none, none⟩ := by
  rw [loseCopies_eq, State.readStore]
  dsimp only
  rw [keptCopy_validGeneration, keptCopy_validGeneration]
  congr 1
  cases s.copyA.valid && !lostA <;> cases s.copyB.valid && !lostB
  case true.true =>
    by_cases h : s.copyA.generation.toNat < s.copyB.generation.toNat
    · simp [activeCopy, h, Nat.not_le.2 h]
    · simp [activeCopy, h, Nat.not_lt.1 h]
  all_goals rfl

namespace State

/-- What a load changes, of u, in s. -/
def withTables (s u : State) : State :=
  { s with
    windows := u.windows, stats := u.stats, captures := u.captures, monitors := u.monitors
    tbSource := u.tbSource, tbEdge := u.tbEdge, limit := u.limit, boot := u.boot
    copyA := u.copyA, copyB := u.copyB }

/-- A fault offered does not look at what a load changes. -/
theorem offerFault_withTables (s u : State) (f : FaultInfo) :
    (s.withTables u).offerFault f = (s.offerFault f).withTables u := by
  have happend : (s.withTables u).appendFault f = (s.appendFault f).withTables u := by
    unfold appendFault offerNotice
    rw [apply_ite (withTables · u)]
    rfl
  have hfaults : (s.withTables u).faults = s.faults := rfl
  unfold offerFault
  rw [happend, hfaults]
  cases s.faults.getLast? with
  | none => rfl
  | some r =>
    simp only [apply_ite (withTables · u)]
    rfl

/-- The boot fault is that of R181's table. -/
theorem offerBootFault_withTables {s u : State} {a b : Bool} (ha : u.boot.genA.isSome = a)
    (hb : u.boot.genB.isSome = b) :
    (s.withTables u).offerBootFault = (withBootFault s a b).withTables u := by
  subst ha
  subst hb
  have hboot : (s.withTables u).boot = u.boot := rfl
  unfold offerBootFault
  rw [hboot]
  cases u.boot.genA <;> cases u.boot.genB
  case some.some => rfl
  all_goals exact offerFault_withTables s u _

end State

theorem withBootFault_frame (s : State) (a b : Bool) : ∃ fl ov al ns l, withBootFault s a b =
    { s with faults := fl, overflow := ov, alert := al, notices := ns, lost := l } := by
  unfold withBootFault
  cases bootFault a b with
  | none => exact ⟨s.faults, s.overflow, s.alert, s.notices, s.lost, rfl⟩
  | some k => exact s.offerFault_frame _

/-- The image that a load takes (R181). -/
theorem activeImage_loseCopies (s : State) (lostA lostB : Bool) :
    (s.loseCopies lostA lostB).readStore.activeImage =
      match (s.loseCopies lostA lostB).readStore.boot.active with
      | some .a => decodeImage s.copyA.payload
      | some .b => decodeImage s.copyB.payload
      | none => defaultImage := by
  have hpay (id : CopyId) :
      ((s.loseCopies lostA lostB).readStore.copy id).payload = (s.copy id).payload := by
    rw [loseCopies_eq]
    cases id <;> exact keptCopy_payload _ _
  unfold State.activeImage
  split
  · rename_i id hid
    rw [hid, hpay]
    cases id <;> rfl
  · rename_i hid
    rw [hid]

/-- An image loaded stands in the part (R1, R48, R93, R145). -/
theorem holdsImage_loadImage (s : State) (i : BootImage) : HoldsImage (s.loadImage i) i := by
  refine ⟨fun w => ?_, fun m => ?_, rfl, rfl, rfl⟩
  · simp [State.loadImage, BootWindow.load]
  · have hmon : (s.loadImage i).monitors[m] = loadMonitor i.monitors[m] := by
      simp [State.loadImage]
    rw [hmon]
    cases i.monitors[m] <;> rfl

/-- The statistics that a load leaves (R105). -/
theorem stats_loadImage (s : State) (i : BootImage) (w : Fin 16) :
    (s.loadImage i).stats[w] = if (s.loadImage i).windows[w].state = .enabled then
      Vector.replicate 4 ⟨0, 0, none, none⟩ else s.stats[w] := by
  have hwin : (s.loadImage i).windows[w].state =
      if i.windows[w].enabled then .enabled else .disabled := by
    simp [State.loadImage, BootWindow.load]
  rw [hwin]
  simp only [State.loadImage, Fin.getElem_fin, Vector.getElem_ofFn]
  cases i.windows[w.val].enabled <;> rfl

/-- What a load leaves, at start-up and by BOOT_RELOAD (R181, R186). -/
theorem reloaded_spec (s : State) (lostA lostB : Bool) :
    let f := withBootFault s (s.copyA.valid && !lostA) (s.copyB.valid && !lostB)
    let t := s.reloaded lostA lostB
    LoadedFrom s t lostA lostB
      ∧ (∀ w : Fin 16, t.captures[w] = none
          ∧ t.stats[w] = if t.windows[w].state = .enabled then Vector.replicate 4 ⟨0, 0, none, none⟩
              else s.stats[w])
      ∧ t = { s with
          windows := t.windows, stats := t.stats, captures := t.captures, monitors := t.monitors
          tbSource := t.tbSource, tbEdge := t.tbEdge, limit := t.limit, boot := t.boot
          copyA := t.copyA, copyB := t.copyB
          faults := f.faults, overflow := f.overflow, alert := f.alert
          notices := f.notices, lost := f.lost }
      ∧ t.boot = (s.loseCopies lostA lostB).readStore.boot := by
  have hboot := boot_readStore_loseCopies s lostA lostB
  have himage := activeImage_loseCopies s lostA lostB
  have hstats : (s.loseCopies lostA lostB).readStore.stats = s.stats := by
    rw [loseCopies_eq]
    rfl
  have hcopies : (s.loseCopies lostA lostB).readStore.copyA = keptCopy s.copyA lostA
      ∧ (s.loseCopies lostA lostB).readStore.copyB = keptCopy s.copyB lostB := by
    rw [loseCopies_eq]
    exact ⟨rfl, rfl⟩
  have htables (i : BootImage) : ((s.loseCopies lostA lostB).readStore.loadImage i) =
      s.withTables ((s.loseCopies lostA lostB).readStore.loadImage i) := by
    rw [loseCopies_eq]
    rfl
  unfold State.reloaded
  dsimp only
  generalize (s.loseCopies lostA lostB).readStore = r at *
  generalize r.activeImage = i at *
  have hu := htables i
  have hholds := holdsImage_loadImage r i
  have hst := stats_loadImage r i
  have hcap (w : Fin 16) : (r.loadImage i).captures[w] = none := by simp [State.loadImage]
  have hub : (r.loadImage i).boot = r.boot := rfl
  have hua : (r.loadImage i).copyA = r.copyA := rfl
  have huc : (r.loadImage i).copyB = r.copyB := rfl
  generalize r.loadImage i = u at *
  rw [himage] at hholds
  have hfault : u.offerBootFault =
      (withBootFault s (s.copyA.valid && !lostA) (s.copyB.valid && !lostB)).withTables u := by
    refine (congrArg State.offerBootFault hu).trans (State.offerBootFault_withTables ?_ ?_)
    · rw [hub, hboot]
      cases s.copyA.valid && !lostA <;> rfl
    · rw [hub, hboot]
      cases s.copyB.valid && !lostB <;> rfl
  obtain ⟨fl, ov, al, ns, l, hf⟩ := withBootFault_frame s (s.copyA.valid && !lostA)
    (s.copyB.valid && !lostB)
  rw [hfault, hf]
  refine ⟨⟨?_, ?_, ?_, ?_, ?_, ?_, ?_⟩, fun w => ⟨hcap w, ?_⟩, rfl, hub⟩
  · exact (congrArg BootStatus.genA (hub.trans hboot))
  · exact (congrArg BootStatus.genB (hub.trans hboot))
  · exact (congrArg BootStatus.active (hub.trans hboot))
  · exact (congrArg BootStatus.commit (hub.trans hboot))
  · rw [← hub] at hholds
    exact hholds
  · exact hua.trans hcopies.1
  · exact huc.trans hcopies.2
  · rw [← hstats]
    exact hst w

/-- Settles O4: the load of start-up loads the store at the next stage. -/
theorem loadTakesActiveCopy : Obligations.LoadTakesActiveCopy := by
  intro lostA lostB s hp
  have hrun : exec (.load lostA lostB) s
      = .next (({ s with phase := .loaded } : State).reloaded lostA lostB) := by
    refine congrArg Host.Outcome.next ((if_pos hp).trans ?_)
    cases lostA <;> cases lostB <;> rfl
  obtain ⟨hl, hst, heq, _⟩ := reloaded_spec { s with phase := .loaded } lostA lostB
  exact ⟨_, hrun, hl, hst, heq⟩

/-! ### The BOOT unit (sections 11.3 to 11.5) -/

/-- A command that the link takes is answered as its unit answers it. -/
theorem next_command_of_takes {s t : State} {trn : Byte} {k : Fin 16} (h : LinkTakes s trn k)
    {unit : Byte} {take : Ctx → State → State}
    (ht : take ⟨unit, trn, k⟩ (s.seeHigh.setSlot k (.held trn unit)) = t) :
    (.next (s.command unit trn take) : Result) = .next t :=
  congrArg Host.Outcome.next ((State.command_of_takes h unit take).trans ht)

theorem all_outOfService_iff (s : State) : s.windows.toList.all Window.outOfService = true ↔
    ∀ w : Fin 16, s.windows[w].state = .disabled ∧ s.windows[w].activity = .idle
      ∧ s.windows[w].deferred = none := by
  rw [List.all_eq_true]
  constructor
  · intro h w
    exact (Window.outOfService_eq _).1 (h _ (by simp))
  · intro h x hx
    obtain ⟨w, hw, rfl⟩ := Vector.mem_iff_getElem.1 (Vector.mem_toList_iff.1 hx)
    exact (Window.outOfService_eq _).2 (h ⟨w, hw⟩)

/-- The copy and generation that a load reports (R186, R195). -/
theorem copyPayload_loseCopies (s : State) (lostA lostB : Bool) :
    copyPayload (s.loseCopies lostA lostB).readStore.boot.active
        (s.loseCopies lostA lostB).readStore.boot.activeGeneration =
      match (s.loseCopies lostA lostB).readStore.boot.active with
      | some .a => 0 :: le32 s.copyA.generation
      | some .b => 1 :: le32 s.copyB.generation
      | none => [2, 0, 0, 0, 0] := by
  rw [boot_readStore_loseCopies]
  cases s.copyA.valid && !lostA <;> cases s.copyB.valid && !lostB
  case true.true =>
    by_cases h : s.copyB.generation.toNat ≤ s.copyA.generation.toNat
    · rw [decide_eq_true h]
      rfl
    · rw [decide_eq_false h]
      rfl
  case false.false => exact show (2 : Byte) :: le32 0 = [2, 0, 0, 0, 0] by decide
  all_goals rfl

/-- Settles O47: the two refusals, and the load. -/
theorem bootReloadLoadsActiveCopy : Obligations.BootReloadLoadsActiveCopy := by
  intro s trn k lostA lostB hl
  have hrun := next_command_of_takes hl (s.takeBootReload_of_held k 0x40 trn lostA lostB)
  refine ⟨fun hc => hrun.trans ?_, fun hc hout => hrun.trans ?_, fun hc hout => ?_⟩
  · rw [if_pos (Option.isSome_iff_ne_none.2 hc)]
  · rw [if_neg (by simp [hc]), if_pos]
    rw [Bool.not_eq_true', ← Bool.not_eq_true]
    exact fun h => hout ((all_outOfService_iff s).1 h)
  · obtain ⟨hload, hst, heq, hboot⟩ := reloaded_spec s lostA lostB
    have hpay := copyPayload_loseCopies s lostA lostB
    rw [← hboot] at hpay
    refine ⟨_, hload, hst, heq, hrun.trans ?_⟩
    rw [if_neg (by simp [hc]), if_neg (by rw [(all_outOfService_iff s).2 hout]; nofun), ← hboot]
    exact congrArg (fun p => Host.Outcome.next (replied _ k 0x40 trn .ok p)) hpay

/-- The generation of the active copy (R178). -/
theorem activeGeneration_eq (b : BootStatus) : b.activeGeneration =
    match b.active with
    | some .a => b.genA
    | some .b => b.genB
    | none => none := by
  unfold BootStatus.activeGeneration
  cases b.active with
  | none => rfl
  | some id => cases id <;> rfl

theorem commitTarget_of_ne {o : Option CopyId} (h : o ≠ some .a) : commitTarget o = .a := by
  cases o with
  | none => rfl
  | some id =>
    cases id with
    | a => exact absurd rfl h
    | b => rfl

/-- Settles O45: the refusals, the commit registered for either target, and the report. -/
theorem bootCommitAndQuery : Obligations.BootCommitAndQuery := by
  refine ⟨fun s trn k hl => ?_, fun s trn k hl => ?_⟩
  · have hrun := next_command_of_takes hl (s.takeBootCommit_of_held k 0x40 trn)
    refine ⟨fun p hp => hrun.trans ?_, fun hc g hg => ⟨fun hlast => hrun.trans ?_, fun hlast =>
      ⟨s.snapshot, fun w => ?_, fun m => ?_, rfl, rfl, rfl, fun ha => hrun.trans ?_,
        fun ha => hrun.trans ?_⟩⟩⟩
    all_goals have hga := activeGeneration_eq s.boot
    · rw [if_pos (by rw [hp]; rfl)]
    · have hfull : s.boot.activeGeneration = some 0xFFFFFFFF := (hga.trans hg.symm).trans hlast
      rw [if_neg (by simp [hc]), if_pos hfull, hfull]
      cases s.boot.active with
      | none => rfl
      | some id => cases id <;> rfl
    · simp [State.snapshot]
    · simp [State.snapshot]
    · have hgen : s.boot.activeGeneration = g := hga.trans hg.symm
      rw [if_neg (by simp [hc]), if_neg (by rw [hgen]; exact hlast), hgen, ha]
      rfl
    · have hgen : s.boot.activeGeneration = g := hga.trans hg.symm
      rw [if_neg (by simp [hc]), if_neg (by rw [hgen]; exact hlast), hgen, commitTarget_of_ne ha]
      rfl
  · have hrun := next_command_of_takes hl (s.takeBootQuery_of_held k 0x40 trn)
    refine ⟨fun hc => hrun.trans ?_, fun hc => hrun.trans ?_⟩
    · rw [if_pos (Option.isSome_iff_ne_none.2 hc)]
    · rw [if_neg (by simp [hc])]
      have hflags : flagBits [s.boot.genA.isSome, s.boot.genB.isSome] =
          (if s.boot.genA.isSome then (1 : Byte) else 0)
            + (if s.boot.genB.isSome then 2 else 0) := by
        cases s.boot.genA.isSome <;> cases s.boot.genB.isSome <;> decide
      rw [hflags]
      cases s.boot.active with
      | none => rfl
      | some id => cases id <;> rfl

/-! ### COMMIT_END (R184, R197) -/

/-- What follows a copy's marker is the same whatever the marker. -/
theorem bytes_setMarker (c : BootCopy) (m : Word) :
    BootCopy.bytes { c with marker := m } = le32 m ++ c.bytes.drop 4 := by
  simp [BootCopy.bytes, le32]

theorem length_bytes {c : BootCopy} (h : c.payload.length = 884) : c.bytes.length = 896 := by
  simp [BootCopy.bytes, le32, h]

theorem writtenCopy_valid (g : Word) (i : BootImage) : (writtenCopy g i).valid = true := by
  rw [BootCopy.valid, Bool.and_eq_true]
  exact ⟨decide_eq_true rfl, decide_eq_true rfl⟩

/-- A commit's reply carries the target and the new generation (R184, R195). -/
theorem endCommit_of_find {s : State} {p : PendingCommit} {d : DeferredEntry}
    (h : s.deferred.find? (·.trn = p.trn) = some d) (status : Status) :
    s.endCommit p status = answeredDeferred { s with boot := { s.boot with commit := none } } d status
      ((if p.target = .a then (0 : Byte) else 1) :: le32 p.generation) := by
  have hpay : copyPayload (some p.target) (some p.generation)
      = (if p.target = .a then (0 : Byte) else 1) :: le32 p.generation := by
    cases p.target <;> rfl
  rw [← hpay]
  exact State.completeDeferred_of_find (s := { s with boot := { s.boot with commit := none } }) h _ _

/-- A wrong marker read back leaves the target invalid (R184). -/
theorem endCommitMarker_of_ne (s : State) (p : PendingCommit) {m : Word} (h : m ≠ 0x5A3C9617) :
    s.endCommitMarker p m =
      (s.setCopy p.target { writtenCopy p.generation p.image with marker := m }).endCommit p .failed :=
  if_neg h

/-- An exact marker read back makes the target valid and active (R184). -/
theorem endCommitMarker_of_exact (s : State) (p : PendingCommit) :
    s.endCommitMarker p 0x5A3C9617 =
      ({ s.setCopy p.target (writtenCopy p.generation p.image) with
        boot := { s.boot.setGeneration p.target (some p.generation) with
          active := some p.target } } : State).endCommit p .ok := by
  have hm : (0x5A3C9617 : Word) = bootMarker := rfl
  unfold State.endCommitMarker
  dsimp only
  rw [if_pos hm]
  cases p.target <;> rfl

/-- Settles O46: what each read-back leaves, and the layout of a copy. -/
theorem commitEndAnswers : Obligations.CommitEndAnswers := by
  refine ⟨fun s p d hp hd => ?_, fun c => ⟨?_, fun hlen => ?_⟩⟩
  · have hlen : (writtenCopy p.generation p.image).payload.length = 884 := encodeImage_length p.image
    have hbody (bytes : List Byte) : exec (.commitEnd (.bodyMismatch bytes)) s
        = .next (s.failCommitBody p bytes) := by
      show execCommitEnd _ s = _
      simp only [execCommitEnd, hp]
    have hmarker (m : Word) : exec (.commitEnd (.markerReadBack m)) s
        = .next (s.endCommitMarker p m) := by
      show execCommitEnd _ s = _
      simp only [execCommitEnd, hp]
    have hdef (c : BootCopy) : (s.setCopy p.target c).deferred = s.deferred := by
      cases p.target <;> rfl
    have hboot (c : BootCopy) : (s.setCopy p.target c).boot = s.boot := by cases p.target <;> rfl
    intro written put reply failed
    have hput (c : BootCopy) : s.setCopy p.target c = put c := by
      dsimp only [put]
      cases p.target <;> rfl
    have hfail (c : BootCopy) : (.next ((s.setCopy p.target c).endCommit p .failed) : Result)
        = failed c := by
      rw [endCommit_of_find (by rw [hdef]; exact hd), hput, ← hput, hboot, hput]
    refine ⟨fun bytes hb hne => ?_, ?_, fun m hm => ?_, fun ht => ?_, fun ht => ?_,
      writtenCopy_valid _ _, rfl, rfl⟩
    · have hread : (BootCopy.ofBytes (le32 0 ++ bytes)).bytes = le32 0 ++ bytes :=
        bytes_ofBytes (by simp [le32, hb])
      have hmark : (BootCopy.ofBytes (le32 0 ++ bytes)).marker = 0 := wordAt_le32_append 0 bytes
      refine ⟨BootCopy.ofBytes (le32 0 ++ bytes), hread, ?_, ?_⟩
      · rw [BootCopy.valid, hmark, decide_eq_false (show (0 : Word) ≠ bootMarker by decide)]
        rfl
      · have hdiff : BootCopy.ofBytes (le32 0 ++ bytes) ≠ { written with marker := 0 } := by
          intro he
          rw [he, bytes_setMarker] at hread
          exact hne (List.append_cancel_left hread).symm
        rw [hbody, State.failCommitBody, if_neg hdiff]
        exact hfail _
    · have hsame : BootCopy.ofBytes (le32 0 ++ written.bytes.drop 4) = { written with marker := 0 } := by
        rw [← bytes_setMarker]
        exact ofBytes_bytes hlen
      rw [hbody, State.failCommitBody, if_pos hsame]
    · rw [hmarker, endCommitMarker_of_ne s p hm]
      exact hfail _
    · rw [hmarker, endCommitMarker_of_exact, endCommit_of_find (by exact (congrArg _ (hdef _)).trans hd),
        ht]
      dsimp only [put, failed, reply]
      rw [ht]
      rfl
    · rw [hmarker, endCommitMarker_of_exact, endCommit_of_find (by exact (congrArg _ (hdef _)).trans hd),
        ht]
      dsimp only [put, failed, reply]
      rw [ht]
      rfl
  · rw [BootCopy.valid, Bool.and_eq_true, decide_eq_true_eq, decide_eq_true_eq]
    rfl
  · have hread := ofBytes_bytes hlen
    exact ⟨length_bytes hlen, congrArg BootCopy.marker hread, congrArg BootCopy.generation hread,
      congrArg BootCopy.payload hread, congrArg BootCopy.crc hread, hread⟩

end Sys2Proof.Machine

/-! PROOFS. Acceptance, the response arbiter, delivery, and the engine's turns (chapters 3 and 4). -/

namespace Sys2Proof.Machine

/-! ### Acceptance (R37 to R41) -/

/-- A request that passes the checks is recorded and queued (R41). -/
theorem accept_of_passes {s : State} {r : HostRequest} {m : Option (Fin 16)} (i : Fin 32)
    (h : s.acceptanceCheck r = none) (hm : s.matchWindow r.addr = m) :
    s.accept i r =
      queuedAs s i m (queuedEntry r s.accCounter m (m.map fun w => s.windows[w].defn.mode)) := by
  unfold State.accept
  rw [h, hm]
  cases m <;> rfl

/-- A request that fails a check is DENIED (R40). -/
theorem accept_of_fails {s : State} {r : HostRequest} {k : FaultKind} {w : Option (Fin 16)}
    (i : Fin 32) (h : s.acceptanceCheck r = some (k, w)) :
    s.accept i r = deniedAs s i r.tag r.addr (opKind r.op) (opLen r.op) k w := by
  have hbuf : opBuffer r.op = if opKind r.op = ReqKind.read ∧ opLen r.op ≤ 16 then
      List.replicate (opLen r.op) 0 else [] := by
    cases r.op with
    | read n => exact if_congr (and_iff_right rfl).symm rfl rfl
    | write ws => exact (if_neg fun h => nomatch h.1).symm
  unfold State.accept
  rw [h]
  dsimp only
  rw [deniedEntry, hbuf]
  rfl

section
variable {s : State} {r : HostRequest}

/-! R39's checks: each when those before it pass. -/

theorem acceptanceCheck_of_misaligned (h : r.addr.toNat % 4 ≠ 0) :
    s.acceptanceCheck r = some (.align, none) := by
  rw [State.acceptanceCheck_eq, if_pos h]

theorem acceptanceCheck_of_length (ha : r.addr.toNat % 4 = 0)
    (h : opLen r.op = 0 ∨ 16 < opLen r.op) : s.acceptanceCheck r = some (.length, none) := by
  rw [State.acceptanceCheck_eq, if_neg (not_not.2 ha), if_pos h]

theorem acceptanceCheck_of_page (ha : r.addr.toNat % 4 = 0) (h1 : 1 ≤ opLen r.op)
    (h16 : opLen r.op ≤ 16) (h : 4096 < r.addr.toNat % 4096 + 4 * opLen r.op) :
    s.acceptanceCheck r = some (.boundary, none) := by
  rw [State.acceptanceCheck_eq, if_neg (not_not.2 ha), if_neg (by omega), if_pos h]

/-- A request that keeps within its length and its page meets the guard and the check of its lanes. -/
theorem acceptanceCheck_of_fits (ha : r.addr.toNat % 4 = 0) (h1 : 1 ≤ opLen r.op)
    (h16 : opLen r.op ≤ 16) (hp : r.addr.toNat % 4096 + 4 * opLen r.op ≤ 4096) :
    s.acceptanceCheck r =
      if opKind r.op = .write ∧ (s.guardWindow r.addr).isSome = true then
        some (.guard, s.guardWindow r.addr)
      else if (∃ x ∈ opWords r.op, HasTornLane x) ∧ (s.matchWindow r.addr).isSome = true then
        some (.torn, s.matchWindow r.addr)
      else none := by
  rw [State.acceptanceCheck_eq, if_neg (not_not.2 ha), if_neg (by omega), if_neg (by omega)]

end

/-- Settles O5: no check fails, and the action is R5's. -/
theorem acceptanceQueuesRequest : Obligations.AcceptanceQueuesRequest := by
  intro s i tag addr m ha hal hm
  have hmatch : s.matchWindow addr = m := State.matchWindow_of_matchedBy hm
  have accepted {r : HostRequest} {e : Entry} (hr : r.addr = addr) (hc : s.acceptanceCheck r = none)
      (he : queuedEntry r s.accCounter m (m.map fun w => s.windows[w].defn.mode) = e) :
      exec (.acceptance r) s = .next (queuedAs s i m e).offerResponse := by
    rw [← he, ← accept_of_passes i hc (by rw [hr, hmatch])]
    exact State.execAcceptance_of_accepts ha r
  refine ⟨fun n h1 h16 hpage => accepted rfl ?_ ?_, fun ws h1 h16 hpage hg htorn =>
    accepted rfl ?_ ?_⟩
  · rw [acceptanceCheck_of_fits (r := ⟨tag, addr, .read n⟩) hal h1 h16 hpage,
      if_neg (fun h => nomatch h.1), if_neg]
    rintro ⟨⟨x, hx, _⟩, _⟩
    cases hx
  · rw [queuedEntry, opBuffer, if_pos h16]
    congr 1
    cases (m.map fun w => s.windows[w].defn.mode : Option Mode) with
    | none => rfl
    | some mode => cases mode <;> rfl
  · rw [acceptanceCheck_of_fits (r := ⟨tag, addr, .write ws⟩) hal h1 h16 hpage, if_neg, if_neg]
    · rintro ⟨⟨x, hx, ht⟩, hs⟩
      rw [hmatch] at hs
      exact htorn hs x hx ht
    · rw [State.guardWindow_of_guardedBy hg]
      rintro ⟨_, hs⟩
      cases hs
  · rw [queuedEntry]
    congr 1
    cases (m.map fun w => s.windows[w].defn.mode : Option Mode) with
    | none => rfl
    | some mode => cases mode <;> rfl

/-- Settles O6: the check that fails first. -/
theorem acceptanceDeniesFailedChecks : Obligations.AcceptanceDeniesFailedChecks := by
  intro s i tag addr ha
  have denied {r : HostRequest} {k : FaultKind} {w : Option (Fin 16)}
      (hc : s.acceptanceCheck r = some (k, w)) : exec (.acceptance r) s =
        .next (deniedAs s i r.tag r.addr (opKind r.op) (opLen r.op) k w).offerResponse := by
    rw [← accept_of_fails i hc]
    exact State.execAcceptance_of_accepts ha r
  refine ⟨fun n => ⟨fun h => denied (acceptanceCheck_of_misaligned h),
      fun hal h => denied (acceptanceCheck_of_length hal h),
      fun hal h1 h16 h => denied (acceptanceCheck_of_page hal h1 h16 h)⟩,
    fun ws g m hg hm => ⟨fun h => denied (acceptanceCheck_of_misaligned h),
      fun hal h => denied (acceptanceCheck_of_length hal h),
      fun hal h1 h16 h => denied (acceptanceCheck_of_page hal h1 h16 h),
      fun hal ⟨h1, h16, hp⟩ hs => denied ?_, fun hal ⟨h1, h16, hp⟩ hn hs ht => denied ?_⟩⟩
  · rw [acceptanceCheck_of_fits (r := ⟨tag, addr, .write ws⟩) hal h1 h16 hp,
      State.guardWindow_of_guardedBy hg, if_pos ⟨rfl, hs⟩]
  · rw [acceptanceCheck_of_fits (r := ⟨tag, addr, .write ws⟩) hal h1 h16 hp,
      State.guardWindow_of_guardedBy hg,
      State.matchWindow_of_matchedBy hm, hn, if_neg (fun h => nomatch h.2), if_pos ⟨ht, hs⟩]

/-! ### The response arbiter (R57, R58) -/

theorem older_iff (a b : Word) : State.older a b = true ↔
    1 ≤ (b - a).toNat ∧ (b - a).toNat ≤ 2 ^ 31 - 1 := by
  rw [State.older, Bool.and_eq_true, decide_eq_true_eq, decide_eq_true_eq]

/-- Of two entries accepted within the range of R38, the one accepted later is not the older. -/
theorem not_older_of_age_le {acc a b : Word} (ha : (acc - a).toNat ≤ (acc - b).toNat)
    (hb : (acc - b).toNat < 2 ^ 31 - 1) : ¬State.older a b = true := by
  rw [older_iff]
  bv_omega

/-- How long ago entry i was accepted (R38). -/
def ageOf (s : State) (i : Fin 32) : Nat :=
  (s.entries[i].map fun e => (s.accCounter - e.num).toNat).getD 0

theorem olderEntry_iff (s : State) (i j : Fin 32) : s.olderEntry i j = true ↔
    ∃ e f, s.entries[i] = some e ∧ s.entries[j] = some f ∧ State.older e.num f.num = true := by
  unfold State.olderEntry
  cases s.entries[i] <;> cases s.entries[j] <;> simp

/-- The eligible entry accepted longest ago is one that the arbiter may choose. -/
theorem exists_choosable {s : State} {i : Fin 32}
    (hage : ∀ (j : Fin 32) (e : Entry), s.entries[j] = some e →
      (s.accCounter - e.num).toNat < 2 ^ 31 - 1) (hi : s.eligible i = true) :
    ∃ k, s.eligible k = true ∧ ∀ j, s.eligible j = true → s.olderEntry j k = false := by
  obtain ⟨k, hk, hmax⟩ := Finset.exists_max_image (Finset.univ.filter (s.eligible · = true)) (ageOf s)
    ⟨i, by simpa using hi⟩
  refine ⟨k, by simpa using hk, fun j hj => Bool.eq_false_iff.2 fun ho => ?_⟩
  obtain ⟨e, f, he, hf, hold⟩ := (olderEntry_iff s j k).1 ho
  have hle : ageOf s j ≤ ageOf s k := hmax j (by simpa using hj)
  simp only [ageOf, he, hf, Option.map_some, Option.getD_some] at hle
  exact not_older_of_age_le hle (hage k f hf) hold

/-- The arbiter's choice is an eligible entry than which none is older. -/
theorem choice_spec {s : State} {i : Fin 32} (h : s.choice = some i) :
    s.eligible i = true ∧ ∀ j, s.eligible j = true → s.olderEntry j i = false := by
  have hp := List.find?_some h
  rw [Bool.and_eq_true, List.all_eq_true] at hp
  refine ⟨hp.1, fun j hj => ?_⟩
  have := hp.2 j (List.mem_finRange j)
  rw [hj] at this
  simpa using this

theorem choice_ne_none {s : State} {k : Fin 32} (hk : s.eligible k = true)
    (hold : ∀ j, s.eligible j = true → s.olderEntry j k = false) : s.choice ≠ none := by
  intro hn
  refine List.find?_eq_none.1 hn k (List.mem_finRange k) ?_
  rw [Bool.and_eq_true, List.all_eq_true]
  refine ⟨hk, fun j _ => ?_⟩
  cases hj : s.eligible j with
  | false => rfl
  | true => rw [hold j hj]; rfl

/-- Settles O7: the choice exists because acceptance numbers order the entries. -/
theorem arbiterOffersOldestEligible : Obligations.ArbiterOffersOldestEligible := by
  intro s
  refine ⟨fun i h => State.offerResponse_of_some h, fun h => ?_, fun i => ?_, fun h => ?_,
    fun i e ho he => ?_⟩
  · rw [State.offerResponse_of_none h]
    refine ⟨rfl, fun i hi => choice_spec hi, fun hnum hnone i => Bool.eq_false_iff.2 fun hi => ?_⟩
    obtain ⟨k, hk, hold⟩ := exists_choosable (fun j e he => (hnum j j e e he he).1) hi
    exact choice_ne_none hk hold hnone
  · rw [State.eligible_iff]
    simp only [not_and, older_iff]
  · rw [State.offeredResponse, h]
    rfl
  · have hresp : s.offeredResponse = some (e.hostTag, e.worst, State.responseWords e) := by
      rw [State.offeredResponse, ho, Option.bind_some, he]
      rfl
    rw [hresp]
    unfold State.responseWords
    refine ⟨fun hk => ?_, fun hk hw => ?_, fun hk hw => ?_⟩
    · rw [hk]
    · rw [hk, if_pos hw, hw]
    · rw [hk, if_neg hw]

/-! ### Delivery (R8, R20, R59) -/

namespace State

section
variable {s : State} {w : Fin 16}

theorem countOut_of_more
    (h : ¬(s.windows[w].state = .draining ∧ s.windows[w].inflight - 1 = 0)) :
    s.countOut w = s.setWindow w { s.windows[w] with inflight := s.windows[w].inflight - 1 } := by
  refine if_neg ?_
  rw [Bool.and_eq_true, decide_eq_true_eq, decide_eq_true_eq]
  exact h

/-- The last delivery of a DRAINING window answers its DISABLE (R20). -/
theorem countOut_of_last {d : DeferredEntry} (hs : s.windows[w].state = .draining)
    (hn : s.windows[w].inflight = 1) (hd : Registered s w d) :
    s.countOut w = answeredDeferred (s.setWindow w
      { s.windows[w] with state := .disabled, inflight := 0, deferred := none }) d .ok [] := by
  have hlast : s.countOut w = (s.setWindow w
      { s.windows[w] with state := .disabled, inflight := 0 }).endWindowCommand w .ok [] := by
    refine (if_pos ?_).trans ?_
    · rw [Bool.and_eq_true, decide_eq_true_eq, decide_eq_true_eq]
      exact ⟨hs, show s.windows[w].inflight - 1 = 0 by rw [hn]⟩
    · rw [hn]
  have hreg : Registered (s.setWindow w
      { s.windows[w] with state := .disabled, inflight := 0 }) w d := by
    refine ⟨?_, hd.2⟩
    rw [setWindow_windows, get_set_self]
    exact hd.1
  rw [hlast, endWindowCommand_of_registered hreg]
  simp only [setWindow, get_set_self, set_set_self]

end

end State

/-- Settles O8: a delivery with no window, one that counts its window, and the last one of a DRAINING
window. -/
theorem responseTakenFreesEntry : Obligations.ResponseTakenFreesEntry := by
  intro s i e ho he
  have hrun : exec .responseTaken s = .next (s.deliver i).offerResponse := by
    show execResponseTaken s = _
    rw [execResponseTaken, ho]
  have hcount {w : Fin 16} (hw : e.window = some w) :
      s.deliver i = ({ s.setEntry i none with offered := none } : State).countOut w := by
    simp only [State.deliver, he, hw]
  refine ⟨fun hw => ?_, fun w hw => ⟨fun hn => ?_, fun d hs hn hd => ?_⟩⟩
  · rw [hrun]
    simp only [State.deliver, he, hw]
    rfl
  all_goals rw [hrun, hcount hw]
  · refine congrArg (fun t => Host.Outcome.next (State.offerResponse t)) (State.countOut_of_more ?_)
    rintro ⟨hs, hz⟩
    have hz' : s.windows[w].inflight - 1 = 0 := hz
    rcases hn with hn | hn
    · exact hn hs
    · omega
  · exact congrArg (fun t => Host.Outcome.next (State.offerResponse t))
      (State.countOut_of_last hs hn hd)

/-! ### The engine arbiter (R65 to R69) -/

theorem length_freeTags (s : State) : s.freeTags.length = s.tags.toList.countP (· = .free) := by
  have hlist : s.tags.toList = (List.finRange 64).map fun t => s.tags[t] :=
    List.ext_getElem (by simp) fun _ _ _ => by simp
  rw [State.freeTags, ← List.countP_eq_length_filter, hlist, List.countP_map]
  rfl

theorem headEntry_eq_some {s : State} {i : Fin 32} {e : Entry} : s.headEntry = some (i, e) ↔
    ∃ rest, s.intake = i :: rest ∧ s.entries[i] = some e := by
  unfold State.headEntry
  cases s.intake with
  | nil => simp
  | cons j rest =>
    cases hj : s.entries[j] with
    | none =>
      simp only [List.head?_cons, Option.bind_some, hj, Option.map_none, reduceCtorEq, false_iff]
      rintro ⟨r, hr, he⟩
      rw [← (List.cons.inj hr).1, hj] at he
      cases he
    | some f =>
      simp only [List.head?_cons, Option.bind_some, hj, Option.map_some, Option.some.injEq,
        Prod.mk.injEq, List.cons.injEq]
      constructor
      · rintro ⟨rfl, rfl⟩
        exact ⟨rest, ⟨rfl, rfl⟩, hj⟩
      · rintro ⟨r, ⟨rfl, _⟩, he⟩
        exact ⟨rfl, Option.some.inj (hj.symm.trans he)⟩

theorem held_iff (s : State) (e : Entry) : s.held e = true ↔ HeldByBlock s e := by
  unfold State.held State.blockInFlight
  rw [Bool.and_eq_true, decide_eq_true_eq]
  refine and_congr_right fun _ => ?_
  cases s.sweep with
  | none => simp
  | some c =>
    simp only [Option.bind_some, Option.some.injEq, exists_eq_left', Bool.or_eq_true,
      decide_eq_true_eq, or_assoc]
    by_cases hp : c.phase = .readOut ∨ c.phase = .writePending ∨ c.phase = .writeIssuing
    · rw [if_pos hp, Option.any_some, overlaps_iff, and_iff_right hp]
      simp only [Range.contains, Bool.and_eq_true, decide_eq_true_eq, and_assoc]
    · rw [if_neg hp]
      simp [hp]

theorem hostReady_iff (s : State) : s.hostReady = true ↔
    ∃ i rest e, s.intake = i :: rest ∧ s.entries[i] = some e ∧ ¬HeldByBlock s e
      ∧ (if e.action = .condWriteShadow then 2 else 1) ≤ s.tags.toList.countP (· = .free) := by
  have hready (e : Entry) : (!s.held e && decide (State.tagsNeeded e.action ≤ s.freeTags.length)) = true ↔
      ¬HeldByBlock s e
        ∧ (if e.action = .condWriteShadow then 2 else 1) ≤ s.tags.toList.countP (· = .free) := by
    rw [Bool.and_eq_true, Bool.not_eq_true', ← Bool.not_eq_true, held_iff, decide_eq_true_eq,
      length_freeTags, State.tagsNeeded]
  unfold State.hostReady
  cases hh : s.headEntry with
  | none =>
    simp only [Bool.false_eq_true, false_iff]
    rintro ⟨i, rest, e, hi, he, _⟩
    rw [headEntry_eq_some.2 ⟨rest, hi, he⟩] at hh
    cases hh
  | some p =>
    obtain ⟨i, e⟩ := p
    rw [hready]
    constructor
    · intro h
      obtain ⟨rest, hi, he⟩ := headEntry_eq_some.1 hh
      exact ⟨i, rest, e, hi, he, h⟩
    · rintro ⟨j, rest, f, hi, he, h⟩
      rw [headEntry_eq_some.2 ⟨rest, hi, he⟩] at hh
      cases hh
      exact h

theorem sweepReady_iff (s : State) : s.sweepReady = true ↔ ∃ c, s.sweep = some c
    ∧ (c.phase = .readPending ∨ c.phase = .writePending) ∧ ∃ t : Fin 64, s.tags[t] = .free := by
  have hfree : (!s.freeTags.isEmpty) = true ↔ ∃ t : Fin 64, s.tags[t] = .free := by
    rw [Bool.not_eq_true', List.isEmpty_eq_false_iff_exists_mem]
    exact exists_congr fun t => s.mem_freeTags t
  unfold State.sweepReady State.sweepPresents
  rw [Bool.and_eq_true, hfree]
  cases s.sweep with
  | none => simp
  | some c => cases hp : c.phase <;> simp [hp]

/-- Settles O9: R67's table, and the two claims. -/
theorem engineGrantFollowsTable : Obligations.EngineGrantFollowsTable := by
  intro s
  refine ⟨fun h => ?_, fun h => ⟨fun hh hs => ?_, fun hh hs => ?_, fun hh hs => ?_, fun hh hs => ?_⟩,
    hostReady_iff s, sweepReady_iff s⟩
  all_goals unfold State.grant
  · rw [if_pos (Option.isSome_iff_ne_none.2 h)]
  · simp [h, hh, hs]
  · simp [h, hh, hs]
  · by_cases hf : s.fairness < 8
    · simp [h, hh, hs, hf]
    · simp [h, hh, hs, hf, Nat.not_lt.1 hf]
  · simp [h, hh, hs]

/-! ### The host turn (R71 to R76) -/

theorem hostSubs_single (e : Entry) (x : Option (Fin 16 × Window)) (t : Fin 64) :
    hostSubs e x [t] = [(.main, ⟨t, e.kind, e.addr, e.len, mainData e x⟩)] := by
  unfold hostSubs
  cases e.action <;> cases x <;> rfl

/-- A turn of one sub-request (R46, R71). -/
theorem takeEntry_single {s : State} {i : Fin 32} {e : Entry} {rest : List (Fin 32)} {t : Fin 64}
    (hq : s.intake = i :: rest) (ht : LowestFree s t) (ha : e.action ≠ .condWriteShadow) :
    s.takeEntry i e = (takenAs s i (takenEntry e (s.takenWindow e) 1) rest
      (s.tags.set t (.inUse
        ⟨.host i .main, e.kind, e.addr, e.len, e.window, some e.hostTag, false, none⟩))
      [⟨t, e.kind, e.addr, e.len, mainData e (s.takenWindow e)⟩]).handTaken e (s.takenWindow e) := by
  unfold State.takeEntry
  dsimp only
  rw [State.tagsNeeded, if_neg ha, State.freeTags_take_one ht, hostSubs_single, hq]
  rfl

/-- The window of an entry that records one, at its take (R71). -/
theorem takenWindow_of_some {s : State} {e : Entry} {w : Fin 16} (h : e.window = some w) :
    s.takenWindow e = some (w, s.windows[w]) := by
  rw [State.takenWindow, h]
  rfl

/-- A take without samples hands none on. -/
theorem handTaken_of_nil {s : State} {e : Entry} {x : Option (Fin 16 × Window)}
    (h : takenSamples e x = []) : s.handTaken e x = s := by
  unfold State.handTaken
  cases x with
  | none => rfl
  | some p => exact congrArg (s.handSamples p.1) h

theorem takenSamples_of_unwritten {e : Entry} (h : e.action = .pass ∨ e.action = .condRead)
    (x : Option (Fin 16 × Window)) : takenSamples e x = [] := by
  unfold takenSamples
  rcases h with h | h <;> rw [h]

/-- Settles O10: a take that conditions nothing. -/
theorem hostTurnPassesAndReads : Obligations.HostTurnPassesAndReads := by
  intro s i e rest t hg ht
  have hrun := State.execHostTurn_of_granted hg
  refine ⟨fun ha => hrun.trans ?_, fun w ha hw => hrun.trans ?_⟩
  · rw [takeEntry_single hg.2.1 ht (by rw [ha]; nofun), 
      handTaken_of_nil (takenSamples_of_unwritten (.inl ha) _)]
    unfold mainData takenEntry
    simp only [ha]
    rfl
  · rw [takeEntry_single hg.2.1 ht (by rw [ha]; nofun), 
      handTaken_of_nil (takenSamples_of_unwritten (.inr ha) _), takenWindow_of_some hw]
    unfold mainData takenEntry
    simp only [ha]
    rfl

/-- Settles O11: the take of a matched write, with one sub-request or two. -/
theorem hostTurnConditionsWrites : Obligations.HostTurnConditionsWrites := by
  refine ⟨fun s i e rest t w hg ht hw => ?_, fun s i e rest t u w b hg ht hw ha hb => ?_⟩
  · have hrun := State.execHostTurn_of_granted hg
    refine ⟨fun ha => hrun.trans ?_, fun ha => hrun.trans ?_⟩
    all_goals
      rw [takeEntry_single hg.2.1 ht (by rw [ha]; nofun), takenWindow_of_some hw]
      unfold mainData takenEntry State.handTaken takenSamples
      simp only [ha, hw]
      rfl
  · refine (State.execHostTurn_of_granted hg).trans ?_
    unfold State.takeEntry
    dsimp only
    rw [State.tagsNeeded, if_pos ha, State.freeTags_take_two ht, takenWindow_of_some hw, hg.2.1]
    unfold hostSubs mainData takenEntry State.handTaken takenSamples shadowAddr
    simp only [ha, hb, Option.getD_some]
    unfold hostRecord
    rw [hw]
    rfl

/-! ### The sweep's turns (R78, R116, R118) -/

/-- Settles O12: the turns that the arbiter grants the sweep. -/
theorem sweepTurnsTakeTheirBlock : Obligations.SweepTurnsTakeTheirBlock := by
  intro s c t hg hc ht
  obtain ⟨rest, hfree⟩ := State.freeTags_of_lowest ht.1 ht.2
  refine ⟨fun b hp hb => ?_, fun ws hp hws => ?_⟩
  · have hrun : exec .sweepReadTurn s = .next (s.takeSweepTurn c .read t
        (sweepReadAddr c s.windows[c.window].defn) [] .readIssuing) := by
      show execSweepReadTurn s = _
      simp only [execSweepReadTurn, hg, hc, hfree, hp, if_true]
    rw [hrun, sweepReadAddr, hb]
    rfl
  · have hrun : exec .sweepWriteTurn s = .next (s.takeSweepTurn c .write t (BitVec.ofNat 32 c.cursor)
        (sweepWriteData c s.windows[c.window]) .writeIssuing) := by
      show execSweepWriteTurn s = _
      simp only [execSweepWriteTurn, hg, hc, hfree, hp, if_true]
    rw [hrun, sweepWriteData, hws]
    rfl

end Sys2Proof.Machine

/-! PROOFS. The D port, the read path, expiry, the sweep unit's answers and ABORT (chapters 3, 5, 7 and
8). -/

namespace Sys2Proof.Machine

/-! ### Issue (R44, R47, R64) -/

theorem Sweep.issued_eq (c : Sweep) (t : Fin 64) : c.issued t =
    if c.tag = some t ∧ c.phase = .readIssuing then { c with phase := .readOut }
    else if c.tag = some t ∧ c.phase = .writeIssuing then { c with phase := .writeOut }
    else c := by
  unfold Sweep.issued
  by_cases h : c.tag = some t
  · rw [if_pos h]
    cases hp : c.phase <;> simp [h]
  · simp [h]

/-- Settles O13: the tag that waits is issued, and the sweep follows it. -/
theorem issueSetsDeadline : Obligations.IssueSetsDeadline := by
  intro s src q rest r ht hr
  show execSubRequestIssue s = _
  have hsweep : s.sweep.map (·.issued q.tag) = s.sweep.map fun c =>
      if c.tag = some q.tag ∧ c.phase = .readIssuing then { c with phase := .readOut }
      else if c.tag = some q.tag ∧ c.phase = .writeIssuing then { c with phase := .writeOut }
      else c := congrArg (Option.map · s.sweep) (funext fun c => c.issued_eq q.tag)
  have hturn : (if rest.isEmpty then none else some (⟨src, rest⟩ : Turn)) =
      if rest = [] then none else some ⟨src, rest⟩ := by
    cases rest <;> rfl
  simp only [execSubRequestIssue, ht, State.issueTag, hr, hsweep, hturn]
  rfl

/-! ### What an answer does to its entry (R50, R55, R56) -/

theorem combine_okay (x : HostStatus) : x.combine .okay = x := by cases x <;> rfl

theorem combine_memerr (x : HostStatus) :
    x.combine .memerr = if x = .okay then .memerr else x := by cases x <;> rfl

theorem combine_expired (x : HostStatus) :
    x.combine .expired = if x = .denied then .denied else .expired := by cases x <;> rfl

theorem answered_eq {e : Entry} (h : 1 ≤ e.pending) (st : HostStatus) : State.answered e st =
    { e with
      state := if e.pending = 1 then EntryState.ready else e.state
      pending := e.pending - 1
      worst := e.worst.combine st } := by
  have hiff : e.pending - 1 = 0 ↔ e.pending = 1 := by omega
  unfold State.answered
  rw [if_congr hiff rfl rfl]

namespace State

section
variable {s : State} {i : Fin 32} {e : Entry} {t : Fin 64} {r : TagRecord}

theorem markStale_of_not {st : HostStatus}
    (h : e.action ≠ .condWriteShadow ∨ e.window = none ∨ st = .okay) : s.markStale e st = s := by
  rcases s.markStale_cases e st with ⟨w, hw, ha, hst, _⟩ | ⟨_, hm⟩
  · rw [hw] at h
    rcases h with h | h | h
    · exact absurd ha h
    · cases h
    · exact absurd h hst
  · exact hm

theorem markStale_of_shadow {st : HostStatus} {w : Fin 16} (ha : e.action = .condWriteShadow)
    (hw : e.window = some w) (hst : st ≠ .okay) : s.markStale e st = s.setStale w := by
  rcases s.markStale_cases e st with ⟨v, hv, _, _, hm⟩ | ⟨hn, _⟩
  · rw [hw] at hv
    rw [hm, Option.some.inj hv]
  · exact absurd ⟨by rw [hw]; rfl, ha, hst⟩ hn

theorem answerEntry_unmarked {st : HostStatus} (he : s.entries[i] = some e) (hp : 1 ≤ e.pending)
    (h : e.action ≠ .condWriteShadow ∨ e.window = none ∨ st = .okay) :
    s.answerEntry i st = { s with entries := s.entries.set i (some { e with
      state := if e.pending = 1 then EntryState.ready else e.state
      pending := e.pending - 1
      worst := e.worst.combine st }) } := by
  rw [answerEntry_of_some he, markStale_of_not h, answered_eq hp]
  rfl

theorem answerEntry_marked {st : HostStatus} {w : Fin 16} (he : s.entries[i] = some e)
    (hp : 1 ≤ e.pending) (ha : e.action = .condWriteShadow) (hw : e.window = some w)
    (hst : st ≠ .okay) :
    s.answerEntry i st = { s with
      entries := s.entries.set i (some { e with
        state := if e.pending = 1 then EntryState.ready else e.state
        pending := e.pending - 1
        worst := e.worst.combine st })
      windows := s.windows.set w { s.windows[w] with stale := true }
      sweep := s.sweep.map fun c => if c.window = w then { c with restaled := true } else c } := by
  rw [answerEntry_of_some he, markStale_of_shadow ha hw hst, answered_eq hp]
  rfl

/-! ### What an answer is told (R49, R50) -/

theorem tagFault_of_host {role : HostRole} (h : r.owner = .host i role) (k : FaultKind) :
    tagFault k r = ⟨k, .host, r.window, some r.addr, r.hostTag⟩ := by
  rw [tagFault, h]

theorem tagFault_of_sweep {role : ReqKind} (h : r.owner = .sweep role) (k : FaultKind) :
    tagFault k r = ⟨k, .sweep, r.window, some r.addr, r.hostTag⟩ := by
  rw [tagFault, h]

theorem answerTag_host_write {role : HostRole} (h : r.owner = .host i role) (hk : r.kind = .write)
    (ws : List Word) : s.answerTag t r .okay ws = (s.setTag t .free).answerEntry i .okay := by
  simp only [answerTag, h, hk]
  rfl

theorem answerTag_host_read {role : HostRole} (h : r.owner = .host i role) (hk : r.kind = .read)
    (ws : List Word) : s.answerTag t r .okay ws =
      ((s.setTag t .free).placeRead i ws).answerEntry i .okay := by
  simp only [answerTag, h, hk]
  rfl

theorem answerTag_host_error {role : HostRole} (h : r.owner = .host i role) (ws : List Word) :
    s.answerTag t r .error ws = ((s.setTag t .free).offerFault
      ⟨memerrKind r.kind, .host, r.window, some r.addr, r.hostTag⟩).answerEntry i .memerr := by
  rw [← tagFault_of_host h]
  simp only [answerTag, h]
  simp [combinedStatus]

theorem answerTag_sweep_okay {role : ReqKind} (h : r.owner = .sweep role) (ws : List Word) :
    s.answerTag t r .okay ws = (s.setTag t .free).answerSweep t .okay ws := by
  simp only [answerTag, h]
  rfl

theorem answerTag_sweep_error {role : ReqKind} (h : r.owner = .sweep role) (ws : List Word) :
    s.answerTag t r .error ws = ((s.setTag t .free).offerFault
      ⟨memerrKind r.kind, .sweep, r.window, some r.addr, r.hostTag⟩).answerSweep t .memerr ws := by
  rw [← tagFault_of_sweep h]
  simp only [answerTag, h]
  rfl

theorem expireTag_host {role : HostRole} (h : r.owner = .host i role) :
    s.expireTag t r = ((s.setTag t (.quarantined r)).offerFault
      ⟨.expired, .host, r.window, some r.addr, r.hostTag⟩).answerEntry i .expired := by
  rw [← tagFault_of_host h]
  simp only [expireTag, h]

theorem expireTag_sweep {role : ReqKind} (h : r.owner = .sweep role) :
    s.expireTag t r = ((s.setTag t (.quarantined r)).offerFault
      ⟨.expired, .sweep, r.window, some r.addr, r.hostTag⟩).answerSweep t .expired [] := by
  rw [← tagFault_of_sweep h]
  simp only [expireTag, h]

/-- A deadline reached passes (R53). -/
theorem passTag_of_reached {dl : Nat} (hr : s.tags[t] = .inUse r) (hi : r.issued = true)
    (hd : r.deadline = some dl) (hb : dl ≤ s.usBase) :
    s.passTag t = (s.expireTag t r).offerResponse := by
  simp [passTag, hr, hi, hd, hb]

end

end State

/-- The words of a COND_READ, conditioned whole (R83, R85). -/
theorem fitWords_conditionRead (d : WindowDef) (chans : List ChanRec) (addr len : Nat)
    (ws : List Word) : State.fitWords len (conditionRead d chans addr (ws.take len)) =
      (conditionBurst d chans addr ((ws.take len).map fun v => ⟨v, 15⟩)).map WriteWord.data
        ++ List.replicate (len - ws.length) 0 := by
  have hlen : (conditionRead d chans addr (ws.take len)).length = min len ws.length := by
    rw [conditionRead, List.length_map, conditionBurst_length, fullWords, List.length_map,
      List.length_take]
  rw [State.fitWords, List.take_of_length_le (by omega), hlen]
  congr 2
  omega

/-- Settles O14: a read's words are placed before its entry is answered. -/
theorem readAnswerFillsBuffer : Obligations.ReadAnswerFillsBuffer := by
  intro s t r i role e ws hh ht hi ho hk he hp hw
  have hrun := State.execMemoryResponse_of_issued hh ht hi .okay ws
  have placed {buffer : List Word} (hb : s.placedBuffer e ws = buffer) :
      exec (.memoryResponse t .okay ws) s = .next { s with
        tags := s.tags.set t .free
        entries := s.entries.set i
          (some { e with state := .ready, pending := 0, buffer := buffer }) }.offerResponse := by
    refine hrun.trans (congrArg (fun u => Host.Outcome.next (State.offerResponse u)) ?_)
    rw [State.answerTag_host_read ho hk,
      State.placeRead_of_some (s := s.setTag t .free) (e := e) he,
      State.answerEntry_unmarked (e := { e with buffer := (s.setTag t .free).placedBuffer e ws })
        (get_set_self _ _ _) (le_of_eq hp.symm) (.inr (.inr rfl))]
    have hb' : (s.setTag t .free).placedBuffer e ws = buffer := hb
    simp only [State.setEntry, set_set_self, hb', hp, combine_okay]
    rfl
  refine ⟨fun ha => placed ?_, fun w chans ha hwin hs => placed ?_⟩
  · simp only [State.placedBuffer, ha]
    rfl
  · simp only [State.placedBuffer, ha, hwin, hs]
    exact fitWords_conditionRead _ _ _ _ _

/-- Settles O15: the answers of a write, and an ERROR. -/
theorem writeAnswerCombinesStatus : Obligations.WriteAnswerCombinesStatus := by
  intro s t r i role e ws hh ht hi ho he u state hpend
  have hp : 1 ≤ e.pending := by omega
  have hrun (st : MemStatus) := State.execMemoryResponse_of_issued hh ht hi st ws
  refine ⟨fun hk => (hrun .okay).trans ?_, ?_⟩
  · rw [State.answerTag_host_write ho hk,
      State.answerEntry_unmarked (s := s.setTag t .free) he hp (.inr (.inr rfl)), combine_okay]
    rfl
  · intro f worst g
    have hf : ((s.setTag t .free).offerFault
        ⟨memerrKind r.kind, .host, r.window, some r.addr, r.hostTag⟩).entries[i] = some e := by
      rw [(State.offerFault_keeps _ _).1]
      exact he
    refine ⟨fun hn => (hrun .error).trans ?_, fun w ha hw => (hrun .error).trans ?_⟩
    · rw [State.answerTag_host_error ho, State.answerEntry_unmarked hf hp (hn.imp id .inl),
        combine_memerr]
      rfl
    · rw [State.answerTag_host_error ho, State.answerEntry_marked (st := .memerr) hf hp ha hw (by decide),
        combine_memerr]
      rfl

/-- Settles O16: a response that no issued tag awaits. -/
theorem lateAndStrayResponses : Obligations.LateAndStrayResponses := by
  intro s t st ws hh
  refine ⟨fun r hr => ?_, fun h => ?_⟩
  · show execMemoryResponse t st ws s = _
    simp only [execMemoryResponse, hh, if_false, hr]
    rfl
  · show execMemoryResponse t st ws s = _
    rcases h with hf | ⟨r, hr, hi⟩
    · simp only [execMemoryResponse, hh, if_false, hf]
      rfl
    · simp only [execMemoryResponse, hh, if_false, hr, hi]
      rfl

/-! ### The sweep unit's answers (R117 to R123, R126) -/

namespace State

section
variable {s : State} {t : Fin 64} {c : Sweep} {st : HostStatus} {ws : List Word} {d : DeferredEntry}

theorem answerSweep_of_none (h : s.sweep = none) : s.answerSweep t st ws = s := by
  rw [answerSweep, h]

theorem answerSweep_of_other (h : s.sweep = some c) (ht : c.tag ≠ some t) :
    s.answerSweep t st ws = s := by
  rw [answerSweep, h]
  exact if_neg ht

theorem answerSweep_of_read (h : s.sweep = some c) (ht : c.tag = some t) (hp : c.phase = .readOut) :
    s.answerSweep t st ws = s.answerSweepRead c st ws := by
  simp only [answerSweep, h, ht, if_true, hp]

theorem answerSweep_of_write (h : s.sweep = some c) (ht : c.tag = some t)
    (hp : c.phase = .writeOut) : s.answerSweep t st ws = s.answerSweepWrite c st := by
  simp only [answerSweep, h, ht, if_true, hp]

/-- A sweep that fails reports its cursor, its blocks and its sub-request (R123). -/
theorem failSweep_of_registered (hd : Registered s c.window d) (hc : c.cursor < 2 ^ 32)
    (role : ReqKind) : s.failSweep c role st =
      answeredDeferred { s with
        windows := s.windows.set c.window
          { s.windows[c.window] with activity := .idle, deferred := none }
        sweep := none, fairness := 0 } d .failed
        (u32 c.cursor ++ u32 c.done
          ++ [if role = .read then 0 else 1, if st = .memerr then 0 else 1]) := by
  rw [failSweep, endSweep_of_registered hd, addressField, if_pos hc]
  rfl

/-- A sweep that is aborted reports its cursor and its blocks (R125, R126). -/
theorem abortSweep_of_registered (hd : Registered s c.window d) (hc : c.cursor < 2 ^ 32) :
    s.abortSweep c = answeredDeferred { s with
        windows := s.windows.set c.window
          { s.windows[c.window] with activity := .idle, deferred := none }
        sweep := none, fairness := 0 } d .aborted (u32 c.cursor ++ u32 c.done) := by
  rw [abortSweep, endSweep_of_registered hd, addressField, if_pos hc, if_pos hc]
  rfl

/-- The last block completes the sweep (R121). -/
theorem completeSweep_of_registered (hd : Registered s c.window d) :
    s.completeSweep c = answeredDeferred { s with
        windows := s.windows.set c.window { s.windows[c.window] with
          activity := .idle, deferred := none
          stale := if c.whole = true ∧ c.restaled = false then false
            else s.windows[c.window].stale }
        sweep := none, fairness := 0 } d .ok (u32 c.done) := by
  have hcond : (c.whole && !c.restaled) = true ↔ c.whole = true ∧ c.restaled = false := by
    rw [Bool.and_eq_true, Bool.not_eq_true']
  unfold completeSweep
  dsimp only
  by_cases h : c.whole = true ∧ c.restaled = false
  · have hreg : Registered (s.setWindow c.window { s.windows[c.window] with stale := false })
        c.window d := by
      refine ⟨?_, hd.2⟩
      rw [setWindow_windows, get_set_self]
      exact hd.1
    rw [if_pos (hcond.2 h), if_pos h, endSweep_of_registered hreg]
    simp only [setWindow, get_set_self, set_set_self]
    rfl
  · rw [if_neg (mt hcond.1 h), if_neg h, endSweep_of_registered hd]
    rfl

theorem answerSweepWrite_of_more (hs : c.stopping = false) (h : c.cursor + 64 < c.stop) :
    s.answerSweepWrite c .okay = { s with sweep := some { c with
      done := c.done + 1, cursor := c.cursor + 64, tag := none, phase := .readPending } } := by
  simp [answerSweepWrite, hs, h]

theorem answerSweepWrite_of_last (hs : c.stopping = false) (h : c.stop ≤ c.cursor + 64) :
    s.answerSweepWrite c .okay =
      s.completeSweep { c with done := c.done + 1, cursor := c.cursor + 64, tag := none } := by
  simp [answerSweepWrite, hs, Nat.not_lt.2 h]

theorem answerSweepWrite_of_failed (hs : c.stopping = false) (h : st ≠ .okay) :
    s.answerSweepWrite c st = s.failSweep c .write st := by
  simp [answerSweepWrite, hs, h]

theorem answerSweepWrite_of_stopping (hs : c.stopping = true) (h : st ≠ .okay) :
    s.answerSweepWrite c st = s.abortSweep c := by
  simp [answerSweepWrite, hs, h]

/-- A stopping sweep counts the block that was written (R126). -/
theorem answerSweepWrite_of_counted (hs : c.stopping = true) : s.answerSweepWrite c .okay =
    s.abortSweep { c with done := c.done + 1, cursor := c.cursor + 64, tag := none } := by
  simp [answerSweepWrite, hs]

theorem stopSweep_of_unwritten (h : s.sweep = some c) (h1 : c.phase ≠ .writeIssuing)
    (h2 : c.phase ≠ .writeOut) : s.stopSweep c.window = s.abortSweep c := by
  simp [stopSweep, h, h1, h2]

theorem stopSweep_of_written (h : s.sweep = some c)
    (hp : c.phase = .writeIssuing ∨ c.phase = .writeOut) :
    s.stopSweep c.window = { s with sweep := some { c with stopping := true } } := by
  simp only [stopSweep, h, if_true]
  rw [if_pos (by simpa using hp)]

/-- A registered command stays registered when neither the windows nor the list change. -/
theorem registered_of_eq {u : State} {w : Fin 16} (h : Registered s w d) (hw : u.windows = s.windows)
    (hd : u.deferred = s.deferred) : Registered u w d := by
  rw [Registered, hw, hd]
  exact h

end

end State

/-- Settles O17: the entry or the sweep that an expired tag belongs to. -/
theorem expiryQuarantinesTag : Obligations.ExpiryQuarantinesTag := by
  intro s t r dl ht hi hd hb u run
  have hrun : run = .next (s.expireTag t r).offerResponse :=
    congrArg Host.Outcome.next (State.passTag_of_reached ht hi hd hb)
  refine ⟨fun i role e ho he hp => ?_, fun k ho => ?_⟩
  · intro f g
    have hf : f.entries[i] = some e := by
      rw [(State.offerFault_keeps _ _).1]
      exact he
    have hexp : s.expireTag t r = f.answerEntry i .expired := State.expireTag_host ho
    refine ⟨fun hn => hrun.trans ?_, fun w ha hw => hrun.trans ?_⟩
    · rw [hexp, State.answerEntry_unmarked hf hp (hn.imp id .inl), combine_expired]
    · rw [hexp, State.answerEntry_marked (st := .expired) hf hp ha hw (by decide), combine_expired]
  · intro f
    have hexp : s.expireTag t r = f.answerSweep t .expired [] := State.expireTag_sweep ho
    obtain ⟨_, hwin, hsw, hdef, _⟩ := State.offerFault_keeps u
      ⟨.expired, .sweep, r.window, some r.addr, r.hostTag⟩
    refine ⟨fun hs => hrun.trans ?_, fun c hs => ⟨fun hc => hrun.trans ?_, fun d hc hcur hreg => ?_⟩⟩
    · rw [hexp, State.answerSweep_of_none (hsw.trans hs)]
    · rw [hexp, State.answerSweep_of_other (hsw.trans hs) hc]
    · have hregf : Registered f c.window d := State.registered_of_eq hreg hwin hdef
      intro ended
      refine ⟨fun hp hst => hrun.trans ?_, fun hp hst => hrun.trans ?_, fun hp hst => hrun.trans ?_⟩
      · rw [hexp, State.answerSweep_of_read (hsw.trans hs) hc hp, State.answerSweepRead,
          if_neg (by decide), State.failSweep_of_registered hregf hcur]
        rfl
      · rw [hexp, State.answerSweep_of_write (hsw.trans hs) hc hp, State.answerSweepWrite_of_failed hst
          (by decide), State.failSweep_of_registered hregf hcur]
        rfl
      · rw [hexp, State.answerSweep_of_write (hsw.trans hs) hc hp, State.answerSweepWrite_of_stopping hst
          (by decide), State.abortSweep_of_registered hregf hcur]

/-- Settles O19: a block read, a block written, and the last block of a sweep. -/
theorem sweepAnswersAdvance : Obligations.SweepAnswersAdvance := by
  intro s t r k c ws hh ht hi ho hs hc u answer x
  have hrun : answer = .next (u.answerSweep t .okay ws).offerResponse := by
    rw [show answer = _ from State.execMemoryResponse_of_issued hh ht hi .okay ws,
      State.answerTag_sweep_okay ho]
    rfl
  refine ⟨fun hp => hrun.trans ?_, fun hp hst => ⟨fun hcur => hrun.trans ?_,
    fun d hcur hreg => hrun.trans ?_⟩⟩
  · rw [State.answerSweep_of_read (s := u) hs hc hp, State.answerSweepRead, if_pos rfl]
    rfl
  · rw [State.answerSweep_of_write (s := u) hs hc hp, State.answerSweepWrite_of_more hst hcur]
  · rw [State.answerSweep_of_write (s := u) hs hc hp, State.answerSweepWrite_of_last hst hcur,
      State.completeSweep_of_registered (s := u)
        (c := { c with done := c.done + 1, cursor := c.cursor + 64, tag := none }) hreg]

/-- Settles O20: an answer that no sweep awaits, a failure, and the end of a stopping sweep. -/
theorem sweepAnswersEndSweep : Obligations.SweepAnswersEndSweep := by
  intro s t r k st ws hh ht hi ho u f answer
  have hrun : answer = .next (f.answerSweep t (combinedStatus st) ws).offerResponse := by
    rw [show answer = _ from State.execMemoryResponse_of_issued hh ht hi st ws]
    cases st with
    | okay => rw [State.answerTag_sweep_okay ho]; rfl
    | error => rw [State.answerTag_sweep_error ho]; rfl
  have hkeep : f.windows = s.windows ∧ f.sweep = s.sweep ∧ f.deferred = s.deferred := by
    cases st with
    | okay => exact ⟨rfl, rfl, rfl⟩
    | error =>
      obtain ⟨_, hwin, hsw, hdef, _⟩ := State.offerFault_keeps u
        ⟨memerrKind r.kind, .sweep, r.window, some r.addr, r.hostTag⟩
      exact ⟨hwin, hsw, hdef⟩
  obtain ⟨hwin, hsw, hdef⟩ := hkeep
  refine ⟨fun c hs hc => hrun.trans ?_, fun hs => hrun.trans ?_, fun c d hs hc hreg => ?_⟩
  · rw [State.answerSweep_of_other (hsw.trans hs) hc]
  · rw [State.answerSweep_of_none (hsw.trans hs)]
  · have hregf : Registered f c.window d := State.registered_of_eq hreg hwin hdef
    intro ended
    refine ⟨fun he hst hcur => ⟨fun hp => hrun.trans ?_, fun hp => hrun.trans ?_⟩,
      fun hp hst hcur => hrun.trans ?_⟩
    · subst he
      rw [State.answerSweep_of_read (hsw.trans hs) hc hp, State.answerSweepRead,
        if_neg (by decide), State.failSweep_of_registered hregf hcur]
      rfl
    · subst he
      rw [State.answerSweep_of_write (hsw.trans hs) hc hp,
        State.answerSweepWrite_of_failed hst (by decide), State.failSweep_of_registered hregf hcur]
      rfl
    · rw [State.answerSweep_of_write (hsw.trans hs) hc hp]
      cases st with
      | okay =>
        rw [show combinedStatus .okay = .okay from rfl, State.answerSweepWrite_of_counted hst,
          State.abortSweep_of_registered
            (c := { c with done := c.done + 1, cursor := c.cursor + 64, tag := none }) hregf hcur]
        rfl
      | error =>
        rw [State.answerSweepWrite_of_stopping hst (by decide),
          State.abortSweep_of_registered hregf (by omega)]
        rfl

/-! ### ABORT (R124 to R126, R140) -/

/-- Settles O21: the reply comes first, and then the sweep or the capture stops. -/
theorem abortStopsSweepOrCapture : Obligations.AbortStopsSweepOrCapture := by
  intro s w trn k hl x ok idle
  have hrun := next_command_of_takes hl (s.takeAbort_of_held k (windowUnit w) trn w)
  refine ⟨fun hn => hrun.trans ?_, fun c d hs ha hsw hcw hcur hreg => ?_,
    fun c d hs ha hcap hreg => hrun.trans ?_⟩
  · rw [if_neg]
    rintro ⟨h1, h2⟩
    exact hn.elim (absurd h1) h2
  · have hstop : exec (.abort w trn) s = .next (ok.stopSweep w) := by
      refine hrun.trans ?_
      rw [if_pos ⟨hs, fun h => nomatch ha.symm.trans h⟩, if_pos ha]
    subst hcw
    refine ⟨fun h1 h2 => hstop.trans ?_, fun hp => hstop.trans ?_⟩
    · rw [State.stopSweep_of_unwritten (s := ok) hsw h1 h2,
        State.abortSweep_of_registered (s := ok) hreg hcur]
      rfl
    · rw [State.stopSweep_of_written (s := ok) hsw hp]
  · have hz : s.windows[w].activity = .zeroing := ha
    rw [if_pos ⟨hs, by rw [hz]; nofun⟩, if_neg (by rw [hz]; nofun)]
    have hstop : ok.stopCapture w = (ok.setCapture w none).endActivity w .aborted (u16 c.count) := by
      rw [State.stopCapture, show ok.captures[w] = some c from hcap]
    show Host.Outcome.next (ok.stopCapture w) = _
    rw [hstop, State.endActivity_of_registered (s := ok.setCapture w none) hreg]
    rfl

end Sys2Proof.Machine

/-! PROOFS. The window commands (section 1.5). -/

namespace Sys2Proof.Machine

/-! ### Enumerated fields (R190) -/

theorem decodeMode_eq_some {b : Byte} {m : Mode} : decodeMode b = some m ↔ m.code = b := by
  refine ⟨fun h => ?_, fun h => h ▸ decodeMode_code m⟩
  unfold decodeMode at h
  split_ifs at h with h0 h1 h2
  · cases h; exact h0.symm
  · cases h; exact h1.symm
  · cases h; exact h2.symm

theorem exists_modeCode {b : Byte} : (∃ m : Mode, m.code = b) ↔ b.toNat ≤ 2 := by
  constructor
  · rintro ⟨m, rfl⟩
    cases m <;> decide
  · intro h
    have hb : b = 0 ∨ b = 1 ∨ b = 2 := by bv_omega
    rcases hb with rfl | rfl | rfl
    · exact ⟨.present, rfl⟩
    · exact ⟨.store, rfl⟩
    · exact ⟨.storeBoth, rfl⟩

theorem modeCode_eq_two {m : Mode} : m.code = 2 ↔ m = .storeBoth := by
  cases m <;> decide

theorem decodeFormat_eq_some {b : Byte} {f : RawFormat} : decodeFormat b = some f ↔ f.code = b := by
  refine ⟨fun h => ?_, fun h => h ▸ decodeFormat_code f⟩
  unfold decodeFormat at h
  split_ifs at h with h0 h1 h2 h3 h4
  · cases h; exact h0.symm
  · cases h; exact h1.symm
  · cases h; exact h2.symm
  · cases h; exact h3.symm
  · cases h; exact h4.symm

theorem exists_formatCode {b : Byte} : (∃ f : RawFormat, f.code = b) ↔ b.toNat ≤ 4 := by
  constructor
  · rintro ⟨f, rfl⟩
    cases f <;> decide
  · intro h
    have hb : b = 0 ∨ b = 1 ∨ b = 2 ∨ b = 3 ∨ b = 4 := by bv_omega
    rcases hb with rfl | rfl | rfl | rfl | rfl
    · exact ⟨.s16, rfl⟩
    · exact ⟨.u16, rfl⟩
    · exact ⟨.s12r, rfl⟩
    · exact ⟨.u12r, rfl⟩
    · exact ⟨.u12l, rfl⟩

theorem decodeCount_eq_some {b : Byte} {n : Nat} :
    decodeCount b = some n ↔ (b = 1 ∨ b = 2 ∨ b = 4) ∧ b.toNat = n := by
  unfold decodeCount
  constructor
  · intro h
    split_ifs at h with h1 h2 h4
    · cases h; exact ⟨.inl h1, by rw [h1]; rfl⟩
    · cases h; exact ⟨.inr (.inl h2), by rw [h2]; rfl⟩
    · cases h; exact ⟨.inr (.inr h4), by rw [h4]; rfl⟩
  · rintro ⟨rfl | rfl | rfl, rfl⟩
    · rfl
    · rfl
    · rfl

/-! ### DEFINE (R13, R14) -/

theorem overlaps_eq_false_iff {a b n : Nat} :
    (!(Range.overlaps ⟨b, b + n⟩ ⟨a, a + n⟩)) = true ↔ b + n ≤ a ∨ a + n ≤ b := by
  unfold Range.overlaps
  rw [Bool.not_eq_true', decide_eq_false_iff_not]
  dsimp only
  omega

/-- R13's conditions on a definition. -/
theorem acceptable_iff (d : WindowDef) : d.acceptable = true ↔
    d.base.toNat % 4096 = 0 ∧ (1 ≤ d.pages ∧ d.pages ≤ 4096)
      ∧ d.base.toNat + d.pages * 4096 ≤ 2 ^ 32 ∧ (d.count = 1 ∨ d.count = 2 ∨ d.count = 4)
      ∧ (d.shadow.isSome = true ↔ d.mode = .storeBoth)
      ∧ ∀ b, d.shadow = some b → b.toNat % 4096 = 0 ∧ b.toNat + d.pages * 4096 ≤ 2 ^ 32
        ∧ (b.toNat + d.pages * 4096 ≤ d.base.toNat
          ∨ d.base.toNat + d.pages * 4096 ≤ b.toNat) := by
  obtain ⟨base, pages, mode, shadow, format, count⟩ := d
  simp only [WindowDef.acceptable, WindowDef.shadowRange, WindowDef.main, Bool.and_eq_true,
    Bool.or_eq_true, decide_eq_true_eq, and_assoc, or_assoc]
  refine and_congr_right fun _ => and_congr_right fun _ => and_congr_right fun _ =>
    and_congr_right fun _ => and_congr_right fun _ => ?_
  cases shadow with
  | none => cases mode <;> simp
  | some b =>
    cases mode with
    | storeBoth =>
      simp only [Option.isSome_some, Option.all_some, overlaps_eq_false_iff,
        Bool.and_eq_true, decide_eq_true_eq, Option.some.injEq, forall_eq', and_assoc]
      simp
    | present => simp
    | store => simp

section
variable (base : Word) (pages : Half) (mode format count flags : Byte) (shadow : Word)

/-- R13's conditions on the fields of a DEFINE. -/
abbrev GoodDefine : Prop :=
  base.toNat % 4096 = 0 ∧ 1 ≤ pages.toNat ∧ pages.toNat ≤ 4096
    ∧ base.toNat + pages.toNat * 4096 ≤ 2 ^ 32 ∧ mode.toNat ≤ 2 ∧ format.toNat ≤ 4
    ∧ (count = 1 ∨ count = 2 ∨ count = 4) ∧ (flags.getLsbD 0 = true ↔ mode = 2)
    ∧ (flags.getLsbD 0 = true → shadow.toNat % 4096 = 0
        ∧ shadow.toNat + pages.toNat * 4096 ≤ 2 ^ 32
        ∧ (shadow.toNat + pages.toNat * 4096 ≤ base.toNat
          ∨ base.toNat + pages.toNat * 4096 ≤ shadow.toNat))

/-- A definition is carried exactly when its enumerated fields are defined, and holds the fields. -/
theorem definitionOf_eq_some {d : WindowDef} :
    definitionOf base pages mode format count flags shadow = some d ↔
      d.base = base ∧ d.pages = pages.toNat ∧ d.mode.code = mode ∧ d.format.code = format
        ∧ ((count = 1 ∨ count = 2 ∨ count = 4) ∧ count.toNat = d.count)
        ∧ d.shadow = if flags.getLsbD 0 then some shadow else none := by
  obtain ⟨base', pages', mode', shadow', format', count'⟩ := d
  rw [← decodeMode_eq_some, ← decodeFormat_eq_some, ← decodeCount_eq_some]
  unfold definitionOf
  cases decodeMode mode with
  | none => simp
  | some m =>
    cases decodeFormat format with
    | none => simp
    | some f =>
      cases decodeCount count with
      | none => simp
      | some n =>
        simp only [Option.bind_eq_bind, Option.bind_some, Option.pure_def, Option.some.injEq,
          WindowDef.mk.injEq]
        constructor
        · rintro ⟨rfl, rfl, rfl, rfl, rfl, rfl⟩
          exact ⟨rfl, rfl, rfl, rfl, rfl, rfl⟩
        · rintro ⟨rfl, rfl, rfl, rfl, rfl, rfl⟩
          exact ⟨rfl, rfl, rfl, rfl, rfl, rfl⟩

/-- The definition that a DEFINE carries is acceptable exactly when its fields are good. -/
theorem acceptable_of_definitionOf {d : WindowDef}
    (h : definitionOf base pages mode format count flags shadow = some d) :
    d.acceptable = true ↔ GoodDefine base pages mode format count flags shadow := by
  obtain ⟨hb, hp, hm, hf, ⟨hc, hn⟩, hs⟩ := (definitionOf_eq_some ..).1 h
  have hm2 : mode.toNat ≤ 2 := exists_modeCode.1 ⟨_, hm⟩
  have hf4 : format.toNat ≤ 4 := exists_formatCode.1 ⟨_, hf⟩
  have hcount : d.count = 1 ∨ d.count = 2 ∨ d.count = 4 := by
    rw [← hn]
    rcases hc with rfl | rfl | rfl <;> decide
  have hmode : (flags.getLsbD 0 = true ↔ mode = 2) ↔
      (d.shadow.isSome = true ↔ d.mode = .storeBoth) := by
    rw [hs, ← modeCode_eq_two, hm]
    cases flags.getLsbD 0 <;> simp
  have hshadow : (∀ b, d.shadow = some b → b.toNat % 4096 = 0 ∧ b.toNat + d.pages * 4096 ≤ 2 ^ 32
        ∧ (b.toNat + d.pages * 4096 ≤ d.base.toNat ∨ d.base.toNat + d.pages * 4096 ≤ b.toNat)) ↔
      (flags.getLsbD 0 = true → shadow.toNat % 4096 = 0
        ∧ shadow.toNat + pages.toNat * 4096 ≤ 2 ^ 32
        ∧ (shadow.toNat + pages.toNat * 4096 ≤ base.toNat
          ∨ base.toNat + pages.toNat * 4096 ≤ shadow.toNat)) := by
    rw [hs, hb, hp]
    cases flags.getLsbD 0 <;> simp
  rw [acceptable_iff, ← hmode, hshadow, hb, hp]
  simp only [GoodDefine, hm2, hf4, hc, hcount, true_and, and_assoc]

/-- Good fields carry a definition. -/
theorem exists_definitionOf (h : GoodDefine base pages mode format count flags shadow) :
    ∃ d, definitionOf base pages mode format count flags shadow = some d := by
  obtain ⟨_, _, _, _, hm, hf, hc, _⟩ := h
  obtain ⟨m, hm⟩ := exists_modeCode.2 hm
  obtain ⟨f, hf⟩ := exists_formatCode.2 hf
  exact ⟨⟨base, pages.toNat, m, if flags.getLsbD 0 then some shadow else none, f, count.toNat⟩,
    (definitionOf_eq_some ..).2 ⟨rfl, rfl, hm, hf, ⟨hc, rfl⟩, rfl⟩⟩

end

theorem resizeChans_length (chans : List ChanRec) (n : Nat) : (resizeChans chans n).length = n := by
  simp [resizeChans]
  omega

/-- A channel record is kept below both counts, and default above the old one (R14). -/
theorem resizeChans_getElem? (chans : List ChanRec) {n j : Nat} (h : j < n) :
    (resizeChans chans n)[j]? = some (chans.getD j .default) := by
  unfold resizeChans
  by_cases hj : j < chans.length
  · rw [List.getElem?_append_left (by rw [List.length_take]; omega), List.getElem?_take_of_lt h,
      List.getD_eq_getElem?_getD, List.getElem?_eq_getElem hj]
    rfl
  · rw [List.getElem?_append_right (by rw [List.length_take]; omega), List.length_take,
      List.getElem?_replicate, if_pos (by omega), List.getD_eq_getElem?_getD,
      List.getElem?_eq_none (by omega)]
    rfl

/-- Settles O22: the definition carried is acceptable exactly when the fields are good. -/
theorem defineReplacesDefinition : Obligations.DefineReplacesDefinition := by
  intro s w trn k base pages mode format count flags shadow hl
  have hrun := next_command_of_takes hl
    (s.takeDefine_of_held k (windowUnit w) trn w base pages mode format count flags shadow)
  refine ⟨fun hs => hrun.trans ?_, fun hs hgood => hrun.trans ?_, fun hs hgood => ?_⟩
  · rw [if_neg hs]
  · have hnone : (definitionOf base pages mode format count flags shadow).filter
        WindowDef.acceptable = none := by
      rw [Option.filter_eq_none_iff]
      intro d hd hacc
      exact hgood ((acceptable_of_definitionOf base pages mode format count flags shadow hd).1 hacc)
    rw [if_pos hs, hnone]
    rfl
  · obtain ⟨d, hd⟩ := exists_definitionOf base pages mode format count flags shadow hgood
    have hacc := (acceptable_of_definitionOf base pages mode format count flags shadow hd).2 hgood
    obtain ⟨hb, hp, hm, hf, ⟨_, hn⟩, hsh⟩ := (definitionOf_eq_some ..).1 hd
    refine ⟨d, resizeChans s.windows[w].chans d.count, hb, hp, hm, hf, hn.symm, hsh, ?_,
      fun j hj => resizeChans_getElem? _ hj, hrun.trans ?_⟩
    · rw [resizeChans_length]
      omega
    · rw [if_pos hs, hd, Option.filter_some, if_pos hacc]
      rfl

/-! ### SET_CHANNEL, ENABLE and DISABLE (R15, R17 to R19) -/

/-- Settles O23: the refusals, and the record replaced. -/
theorem setChannelReplacesRecord : Obligations.SetChannelReplacesRecord := by
  intro s w trn k channel g o l h hl
  have hrun := next_command_of_takes hl
    (s.takeSetChannel_of_held k (windowUnit w) trn w channel ⟨g, o, l, h⟩)
  refine ⟨fun ho => hrun.trans ?_, fun ho hg => hrun.trans ?_, fun ho hg hb => hrun.trans ?_,
    fun ho hg hs hm => hrun.trans ?_⟩
  · rw [if_neg ho]
  · rw [if_pos ho, if_neg hg]
  · rw [if_pos ho, if_pos hg, if_neg hb]
  · rw [if_pos ho, if_pos hg, if_pos ⟨hs, hm⟩]

/-- A byte address that the ranges of a definition cover. -/
abbrev Covers (d : WindowDef) (a : Nat) : Prop :=
  (d.base.toNat ≤ a ∧ a < d.base.toNat + d.pages * 4096)
    ∨ d.mode = .storeBoth ∧ ∃ b, d.shadow = some b ∧ b.toNat ≤ a ∧ a < b.toNat + d.pages * 4096

theorem conflicts_iff (s : State) (w : Fin 16) : s.conflicts w = true ↔
    ∃ (v : Fin 16) (a : Nat), v ≠ w ∧ s.windows[v].state ≠ .disabled
      ∧ Covers s.windows[w].defn a ∧ Covers s.windows[v].defn a := by
  rw [State.conflicts, List.any_eq_true]
  refine exists_congr fun v => ?_
  rw [Bool.and_eq_true, Bool.and_eq_true, meets_iff, decide_eq_true_eq, Window.inService, bne_iff_ne]
  simp only [ranges_contains_iff, List.mem_finRange, true_and, exists_and_left, and_assoc]

theorem covers_iff (d : WindowDef) (a : Word) :
    (d.inMain a || d.inShadow a) = true ↔ Covers d a.toNat := by
  rw [inMain_or_inShadow, ranges_contains_iff]

theorem unsettledEntry_iff (e : Entry) (d : WindowDef) : e.unsettledIn d = true ↔
    e.state ≠ .ready ∧ e.window = none ∧ e.kind = .write ∧ Covers d e.addr.toNat := by
  unfold Entry.unsettledIn
  rw [Bool.and_eq_true, covers_iff]
  simp [and_assoc]

theorem unsettledTag_iff (x : Tag) (d : WindowDef) : x.unsettledIn d = true ↔
    ∃ r, x = .quarantined r ∧ r.kind = .write ∧ Covers d r.addr.toNat := by
  unfold Tag.unsettledIn
  cases x with
  | quarantined r =>
    rw [Bool.and_eq_true, covers_iff, decide_eq_true_eq]
    simp
  | free | inUse r => simp

theorem unsettled_iff (s : State) (d : WindowDef) : s.unsettled d = true ↔
    (∃ (i : Fin 32) (e : Entry), s.entries[i] = some e ∧ e.state ≠ .ready ∧ e.window = none
      ∧ e.kind = .write ∧ Covers d e.addr.toNat)
    ∨ ∃ (t : Fin 64) (r : TagRecord), s.tags[t] = .quarantined r ∧ r.kind = .write
      ∧ Covers d r.addr.toNat := by
  unfold State.unsettled
  rw [Bool.or_eq_true, List.any_eq_true, List.any_eq_true]
  refine or_congr ⟨?_, ?_⟩ ⟨?_, ?_⟩
  · rintro ⟨o, ho, hu⟩
    obtain ⟨i, hi, rfl⟩ := Vector.mem_iff_getElem.1 (Vector.mem_toList_iff.1 ho)
    obtain ⟨e, he, hu⟩ := (Option.any_eq_true ..).1 hu
    exact ⟨⟨i, hi⟩, e, he, (unsettledEntry_iff e d).1 hu⟩
  · rintro ⟨i, e, he, hu⟩
    refine ⟨s.entries[i], by simp, ?_⟩
    rw [he]
    exact (unsettledEntry_iff e d).2 hu
  · rintro ⟨x, hx, hu⟩
    obtain ⟨i, hi, rfl⟩ := Vector.mem_iff_getElem.1 (Vector.mem_toList_iff.1 hx)
    exact ⟨⟨i, hi⟩, (unsettledTag_iff _ d).1 hu⟩
  · rintro ⟨t, hu⟩
    exact ⟨s.tags[t], by simp, (unsettledTag_iff _ d).2 hu⟩

/-- Settles O24: the checks in order, and the window put into service. -/
theorem enableChecksConflictAndTraffic : Obligations.EnableChecksConflictAndTraffic := by
  intro s w trn k hl
  have hrun := next_command_of_takes hl (s.takeEnable_of_held k (windowUnit w) trn w)
  refine ⟨fun hs => hrun.trans ?_, fun hs hc => hrun.trans ?_, fun hs hc hu => hrun.trans ?_,
    fun hs hc hu => hrun.trans ?_⟩
  · rw [if_neg hs]
  · rw [if_pos hs, if_pos ((conflicts_iff s w).2 hc)]
  · rw [if_pos hs, if_neg (mt (conflicts_iff s w).1 hc), if_pos ((unsettled_iff s _).2 hu)]
  · rw [if_pos hs, if_neg (mt (conflicts_iff s w).1 hc), if_neg (mt (unsettled_iff s _).1 hu)]
    rfl

/-- Settles O25: the refusals, and the two ends. -/
theorem disableDrainsOrEnds : Obligations.DisableDrainsOrEnds := by
  intro s w trn k hl
  have hrun := next_command_of_takes hl (s.takeDisable_of_held k (windowUnit w) trn w)
  refine ⟨fun hs => hrun.trans ?_, fun hs ha => hrun.trans ?_, fun hs ha hn => hrun.trans ?_,
    fun hs ha hn => hrun.trans ?_⟩
  · rw [if_neg hs]
  · rw [if_pos hs, if_neg ha]
  · rw [if_pos hs, if_pos ha, if_pos hn]
  · have hne : s.windows[w].inflight ≠ 0 := Nat.one_le_iff_ne_zero.1 hn
    rw [if_pos hs, if_pos ha, if_neg hne]

/-! ### QUERY (R21, R195) -/

theorem flagBits_six (a b c d e f : Bool) :
    (flagBits [a, b, c, d, e, f]).getLsbD 0 = a ∧ (flagBits [a, b, c, d, e, f]).getLsbD 1 = b
      ∧ (flagBits [a, b, c, d, e, f]).getLsbD 2 = c ∧ (flagBits [a, b, c, d, e, f]).getLsbD 3 = d
      ∧ (flagBits [a, b, c, d, e, f]).getLsbD 4 = e
      ∧ (flagBits [a, b, c, d, e, f]).getLsbD 5 = f := by
  revert a b c d e f
  decide

theorem wordAt_append_add (p q : List Byte) (i : Nat) :
    wordAt (p ++ q) (p.length + i) = wordAt q i := by
  rw [wordAt, wordAt, halfAt_append_length, Nat.add_assoc, halfAt_append_length]

/-- A field behind the first n bytes. -/
theorem halfAt_behind {p head tail : List Byte} {n : Nat} (h : p = head ++ tail)
    (hn : head.length = n) (i : Nat) : halfAt p (n + i) = halfAt tail i := by
  rw [h, ← hn, halfAt_append_length]

/-- A field behind the first n bytes. -/
theorem wordAt_behind {p head tail : List Byte} {n : Nat} (h : p = head ++ tail)
    (hn : head.length = n) (i : Nat) : wordAt p (n + i) = wordAt tail i := by
  rw [h, ← hn, wordAt_append_add]

theorem wordAt_zeros_eight (q : List Byte) :
    wordAt (zeros 8 ++ q) 0 = 0 ∧ wordAt (zeros 8 ++ q) 4 = 0 := by
  have hz : zeros 8 = le32 0 ++ le32 0 := by decide
  rw [hz, List.append_assoc]
  exact ⟨wordAt_le32_append 0 _,
    (wordAt_append_add (le32 0) _ 0).trans (wordAt_le32_append 0 _)⟩

theorem wordAt_two_words (a b : Word) (q : List Byte) :
    wordAt ((le32 a ++ le32 b) ++ q) 0 = a ∧ wordAt ((le32 a ++ le32 b) ++ q) 4 = b :=
  ⟨word_of_bytes a, word_of_bytes b⟩

section
variable (s : State) (w : Fin 16) (channel : Byte)

/-- The sweep that QUERY reports, and the capture (R21). -/
def queriedSweep : Option Sweep := if s.windows[w].activity = .sweeping then s.sweep else none

def queriedCapture : Option Capture := if s.windows[w].activity = .zeroing then s.captures[w] else none

/-- QUERY's first 19 bytes (R195). -/
def queryHead : List Byte :=
  le32 s.windows[w].defn.base ++ u16 s.windows[w].defn.pages
    ++ [s.windows[w].defn.mode.code, s.windows[w].defn.format.code, u8 s.windows[w].defn.count]
    ++ le32 (s.windows[w].defn.shadow.getD 0)
    ++ [s.windows[w].state.code, s.windows[w].activity.code,
        flagBits [s.windows[w].defn.shadow.isSome, s.windows[w].stale, s.windows[w].deferred.isSome,
          (queriedChan s.windows[w] channel.toNat).isSome, (queriedSweep s w).isSome,
          (queriedCapture s w).isSome],
        (s.windows[w].deferred.map (·.kind.code)).getD 0, u8 s.windows[w].inflight, channel]

/-- Its channel record, 8 bytes. -/
def queryRecord : List Byte := ((queriedChan s.windows[w] channel.toNat).map fun r =>
  le16 r.gain ++ le16 r.offset ++ le16 r.low ++ le16 r.high).getD (zeros 8)

/-- The sweep's progress, 8 bytes. -/
def querySweep : List Byte :=
  ((queriedSweep s w).map fun k => addressField s.freeCount k.cursor ++ u32 k.done).getD (zeros 8)

/-- The capture's progress, 4 bytes. -/
def queryCapture : List Byte :=
  ((queriedCapture s w).map fun k => u16 k.count ++ u16 (2 ^ k.n)).getD (zeros 4)

theorem queryPayload_eq : queryPayload s w channel =
    queryHead s w channel ++ (queryRecord s w channel ++ (querySweep s w ++ queryCapture s w)) := by
  rw [← List.append_assoc, ← List.append_assoc]
  rfl

theorem queryRecord_length : (queryRecord s w channel).length = 8 := by
  unfold queryRecord
  cases queriedChan s.windows[w] channel.toNat <;> rfl

theorem querySweep_length : (querySweep s w).length = 8 := by
  unfold querySweep addressField
  cases queriedSweep s w with
  | none => rfl
  | some k =>
    simp only [Option.map_some, Option.getD_some]
    split <;> rfl

theorem queryCapture_length : (queryCapture s w).length = 4 := by
  unfold queryCapture
  cases queriedCapture s w <;> rfl

theorem queryPayload_length : (queryPayload s w channel).length = 39 := by
  rw [queryPayload_eq, List.length_append, List.length_append, List.length_append,
    queryRecord_length, querySweep_length, queryCapture_length]
  rfl

/-- The channel record's fields stand from byte 19. -/
theorem halfAt_queryRecord (i : Nat) : halfAt (queryPayload s w channel) (19 + i) =
    halfAt (queryRecord s w channel ++ (querySweep s w ++ queryCapture s w)) i :=
  halfAt_behind (queryPayload_eq s w channel) rfl i

theorem wordAt_queryRecord (i : Nat) : wordAt (queryPayload s w channel) (19 + i) =
    wordAt (queryRecord s w channel ++ (querySweep s w ++ queryCapture s w)) i :=
  wordAt_behind (queryPayload_eq s w channel) rfl i

/-- The sweep's progress stands from byte 27. -/
theorem wordAt_querySweep (i : Nat) : wordAt (queryPayload s w channel) (27 + i) =
    wordAt (querySweep s w ++ queryCapture s w) i := by
  refine wordAt_behind (head := queryHead s w channel ++ queryRecord s w channel) ?_ ?_ i
  · rw [queryPayload_eq, List.append_assoc]
  · rw [List.length_append, queryRecord_length]
    rfl

/-- The capture's progress stands from byte 35. -/
theorem queryCapture_behind : queryPayload s w channel =
      (queryHead s w channel ++ (queryRecord s w channel ++ querySweep s w)) ++ queryCapture s w
    ∧ (queryHead s w channel ++ (queryRecord s w channel ++ querySweep s w)).length = 35 := by
  refine ⟨?_, ?_⟩
  · rw [queryPayload_eq, List.append_assoc, List.append_assoc]
  · rw [List.length_append, List.length_append, queryRecord_length, querySweep_length]
    rfl

end

/-- Settles O26: the fields before the three records, and each record present or absent. -/
theorem queryReportsWindow : Obligations.QueryReportsWindow := by
  intro s w trn k channel hl x
  have hrun := next_command_of_takes hl (s.takeQuery_of_held k (windowUnit w) trn w channel)
  refine ⟨fun hc => hrun.trans (by rw [if_neg (Nat.not_lt.2 hc)]), fun hc =>
    ⟨queryPayload s w channel, hrun.trans (by rw [if_pos hc]), queryPayload_length s w channel,
      word_of_bytes _, half_of_bytes _, rfl, rfl, rfl, word_of_bytes _, rfl, rfl, ?_⟩⟩
  obtain ⟨h0, h1, h2, h3, h4, h5⟩ := flagBits_six x.defn.shadow.isSome x.stale x.deferred.isSome
    (queriedChan x channel.toNat).isSome (queriedSweep s w).isSome (queriedCapture s w).isSome
  have hflags : byteAt (queryPayload s w channel) 15 = flagBits [x.defn.shadow.isSome, x.stale,
    x.deferred.isSome, (queriedChan x channel.toNat).isSome, (queriedSweep s w).isSome,
    (queriedCapture s w).isSome] := rfl
  rw [hflags]
  refine ⟨h0, h1, h2, ?_, rfl, rfl, fun r hlt hr => ?_, fun hge => ?_, fun c ha hs hcur => ?_,
    fun ha => ?_, fun c ha hcap => ?_, fun ha => ?_⟩
  · show (x.deferred.map (·.kind.code)).getD 0 = _
    cases x.deferred <;> rfl
  · have hq : queriedChan x channel.toNat = some r := (if_pos hlt).trans hr
    have hrec : queryRecord s w channel =
        le16 r.gain ++ le16 r.offset ++ le16 r.low ++ le16 r.high := by
      rw [queryRecord, hq]
      rfl
    refine ⟨h3.trans (by rw [hq]; rfl), (halfAt_queryRecord s w channel 0).trans ?_,
      (halfAt_queryRecord s w channel 2).trans ?_, (halfAt_queryRecord s w channel 4).trans ?_,
      (halfAt_queryRecord s w channel 6).trans ?_⟩
    all_goals rw [hrec]; exact half_of_bytes _
  · have hq : queriedChan x channel.toNat = none := if_neg (Nat.not_lt.2 hge)
    have hrec : queryRecord s w channel = zeros 8 := by
      rw [queryRecord, hq]
      rfl
    obtain ⟨hz, hz'⟩ := wordAt_zeros_eight (querySweep s w ++ queryCapture s w)
    exact ⟨h3.trans (by rw [hq]; rfl), (wordAt_queryRecord s w channel 0).trans (hrec ▸ hz),
      (wordAt_queryRecord s w channel 4).trans (hrec ▸ hz')⟩
  · have hq : queriedSweep s w = some c := (if_pos ha).trans hs
    have hsw : querySweep s w = le32 (BitVec.ofNat 32 c.cursor) ++ le32 (BitVec.ofNat 32 c.done) := by
      rw [querySweep, hq, Option.map_some, Option.getD_some, addressField, if_pos hcur]
      rfl
    obtain ⟨hz, hz'⟩ := wordAt_two_words (BitVec.ofNat 32 c.cursor) (BitVec.ofNat 32 c.done)
      (queryCapture s w)
    exact ⟨h4.trans (by rw [hq]; rfl), (wordAt_querySweep s w channel 0).trans (hsw ▸ hz),
      (wordAt_querySweep s w channel 4).trans (hsw ▸ hz')⟩
  · have hq : queriedSweep s w = none := if_neg ha
    have hsw : querySweep s w = zeros 8 := by
      rw [querySweep, hq]
      rfl
    obtain ⟨hz, hz'⟩ := wordAt_zeros_eight (queryCapture s w)
    exact ⟨h4.trans (by rw [hq]; rfl), (wordAt_querySweep s w channel 0).trans (hsw ▸ hz),
      (wordAt_querySweep s w channel 4).trans (hsw ▸ hz')⟩
  · have hq : queriedCapture s w = some c := (if_pos ha).trans hcap
    have hc : queryCapture s w = u16 c.count ++ u16 (2 ^ c.n) := by
      rw [queryCapture, hq]
      rfl
    obtain ⟨hp, hlen⟩ := queryCapture_behind s w channel
    refine ⟨h5.trans (by rw [hq]; rfl), (halfAt_behind hp hlen 0).trans ?_,
      (halfAt_behind hp hlen 2).trans ?_⟩
    all_goals rw [hc]; exact half_of_bytes _
  · have hq : queriedCapture s w = none := if_neg ha
    have hc : queryCapture s w = zeros 4 := by
      rw [queryCapture, hq]
      rfl
    obtain ⟨hp, hlen⟩ := queryCapture_behind s w channel
    refine ⟨h5.trans (by rw [hq]; rfl), (wordAt_behind hp hlen 0).trans ?_⟩
    rw [hc]
    decide

end Sys2Proof.Machine

/-! PROOFS. The consumers of the sample stream, and the statistics and monitor commands (chapters 6
and 8). -/

namespace Sys2Proof.Machine

/-! ### READ_STATS (R107) -/

theorem flagBits_singleton (b : Bool) : flagBits [b] = if b then 1 else 0 := by
  revert b
  decide

/-- Settles O27: the slot's record, with and without its two extremes. -/
theorem readStatsReportsAndClears : Obligations.ReadStatsReportsAndClears := by
  intro s w trn k slot flags hl
  have hrun := next_command_of_takes hl (s.takeReadStats_of_held k (windowUnit w) trn w slot flags)
  refine ⟨fun hs => hrun.trans (by rw [dif_neg (Nat.not_lt.2 hs)]), ?_⟩
  intro c hc r
  have hslot : slot.toNat < 4 := hc ▸ c.isLt
  have hpayload : statsPayload slot r =
      slot :: flagBits [r.min.isSome && r.max.isSome] :: (u32 r.samples ++ u32 r.clipped
        ++ i16 (r.min.getD 0) ++ i16 (r.max.getD 0)) := rfl
  refine ⟨statsPayload slot r, rfl, rfl, word_of_bytes _, word_of_bytes _, fun lo hi hlo hhi => ?_,
    fun hlo hhi => ?_, hrun.trans ?_⟩
  · rw [hpayload, hlo, hhi]
    exact ⟨flagBits_singleton true, half_of_bytes _, half_of_bytes _⟩
  · rw [hpayload, hlo, hhi]
    exact ⟨flagBits_singleton false, (word_of_bytes 0 :)⟩
  · have hfin : (⟨slot.toNat, hslot⟩ : Fin 4) = c := Fin.ext hc
    have hrec : (s.stats[w])[slot.toNat] = r := by
      show (s.stats[w])[slot.toNat] = (s.stats[w])[c.val]
      simp only [hc]
    rw [dif_pos hslot, hfin, hrec]
    rfl

/-! ### Statistics and monitors (R95 to R99, R106) -/

namespace State
variable (s : State) (w : Fin 16) (stamp : Word) (x : Sample)

theorem countSample_of_channel {c : Fin 4} (h : x.channel = c.val) : s.countSample w x =
    { s with
      stats := s.stats.set w
        ((s.stats[w]).set c (Stats.add (s.stats[w])[c] x.result.y x.result.clipped)) } := by
  have hc : Fin.ofNat 4 x.channel = c := Fin.ext (by rw [h]; exact Nat.mod_eq_of_lt c.isLt)
  subst hc
  rfl

section
variable {s w x} {k : Fin 16}

theorem watchSample_of_unbound (h : s.monitors[k].bind = none) :
    s.watchSample w stamp x k = s := by
  simp only [watchSample, h]

variable {b : MonBind} (h : s.monitors[k].bind = some b)
include h

theorem sees_iff : s.monitors[k].sees w x.channel = true ↔
    s.monitors[k].state = .armed ∧ b.window = w ∧ b.channel = x.channel := by
  rw [Monitor.sees, h]
  simp

theorem watchSample_of_unseen
    (hs : s.monitors[k].state ≠ .armed ∨ b.window ≠ w ∨ b.channel ≠ x.channel) :
    s.watchSample w stamp x k = s := by
  have hno : ¬ s.monitors[k].sees w x.channel = true := by
    rw [sees_iff h]
    tauto
  simp only [watchSample, h]
  exact if_neg hno

variable (hs : s.monitors[k].state = .armed ∧ b.window = w ∧ b.channel = x.channel)
  {side : Side} {crossing : Option Edge}
  (hc : classify s.monitors[k].side b.level.toInt b.hysteresis x.result.y = (side, crossing))
include hs hc

theorem watchSample_of_unwatched (hw : ∀ e, crossing = some e → b.direction.watches e = false) :
    s.watchSample w stamp x k = s.setMonitor k { s.monitors[k] with side := side } := by
  simp only [watchSample, h, hc]
  rw [if_pos ((sees_iff h).2 hs)]
  cases crossing with
  | none => rfl
  | some e => exact if_neg (by rw [hw e rfl]; decide)

theorem watchSample_of_watched {e : Edge} (he : crossing = some e)
    (hw : b.direction.watches e = true) :
    s.watchSample w stamp x k =
      (s.setMonitor k (s.monitors[k].cross b side ⟨e, x.result.y, x.addr, stamp⟩)).offerNotice
        (.crossing k b.window b.channel (satInc 65535 s.monitors[k].count)
          ⟨e, x.result.y, x.addr, stamp⟩) := by
  subst he
  simp only [watchSample, h, hc]
  rw [if_pos ((sees_iff h).2 hs)]
  exact if_pos hw

end

theorem handSamples_cons (xs : List Sample) :
    s.handSamples w (x :: xs) = (s.handSample w s.tbValue x).handSamples w xs
      ∧ (s.handSample w s.tbValue x).tbValue = s.tbValue := by
  have htb : (s.handSample w s.tbValue x).tbValue = s.tbValue := by
    have h1 : s.handSample w s.tbValue x = s.handSamples w [x] := rfl
    obtain ⟨_, _, _, _, _, _, _, _, _, _, hf⟩ := s.handSamples_frame w [x]
    rw [h1, hf]
  refine ⟨?_, htb⟩
  rw [handSamples, handSamples, htb]
  rfl

end State

theorem Monitor.cross_of_armed {m : Monitor} {b : MonBind} (hb : m.bind = some b)
    (hs : m.state = .armed) (side : Side) (r : Crossing) :
    m.cross b side r = ⟨if b.mode = MonMode.oneShot then .tripped else .armed, some b, side,
      satInc 65535 m.count, some r⟩ := by
  rw [Monitor.cross, hb, hs]

/-- Settles O28: the counted record, the monitors' cases, and the burst in order. -/
theorem sampleReachesStatsAndMonitors : Obligations.SampleReachesStatsAndMonitors := by
  refine ⟨fun s w x c stamp hx => ⟨?_, fun hw => if_neg hw, fun hw => if_pos hw,
    fun k hb => State.watchSample_of_unbound stamp hb, ?_, rfl⟩,
    fun s w => ⟨rfl, fun x xs => s.handSamples_cons w x xs⟩⟩
  · refine ⟨(s.stats[w])[c].add x.result.y x.result.clipped, s.countSample_of_channel w x hx, rfl,
      fun h0 => ?_, fun lo hi h0 hlo hhi => ?_,
      fun hcl => ?_, fun hcl => ?_⟩
    · exact ⟨if_pos h0, if_pos h0⟩
    · refine ⟨(if_neg h0).trans ?_, (if_neg h0).trans ?_⟩
      · rw [hlo, Option.map_some, min_def']
        grind
      · rw [hhi, Option.map_some, max_def']
        grind
    · exact if_neg (by rw [hcl]; decide)
    · exact if_pos hcl
  · intro k b hb m
    refine ⟨fun hs => State.watchSample_of_unseen stamp hb hs, fun ha hbw hch side crossing hcl =>
      ⟨fun hw => State.watchSample_of_unwatched stamp hb ⟨ha, hbw, hch⟩ hcl hw, ?_⟩⟩
    intro e he hw n
    rw [State.watchSample_of_watched stamp hb ⟨ha, hbw, hch⟩ hcl he hw, Monitor.cross_of_armed hb ha]
    rfl

/-! ### Zero capture (R134 to R138) -/

theorem limit16_eq (v : Int) : limit16 v = max (-32768) (min 32767 v) := by
  unfold limit16
  omega

/-- The mean is the floor of the rounded quotient (R136). -/
theorem captureMean_bounds (acc : Int) (n : Nat) :
    2 ^ n * captureMean acc n ≤ acc + 2 ^ (n - 1)
      ∧ acc + 2 ^ (n - 1) < 2 ^ n * (captureMean acc n + 1) := by
  have hpos : (0 : Int) < 2 ^ n := by positivity
  refine ⟨Int.mul_ediv_self_le hpos.ne', ?_⟩
  rw [mul_add, mul_one]
  exact Int.lt_mul_ediv_self_add hpos

/-- A full capture's registered ZERO is answered, its window's record and stale flag set (R136). -/
theorem State.completeCapture_of_registered {s : State} {w : Fin 16} {c : Capture} {d : DeferredEntry}
    {r : ChanRec} (hr : s.windows[w].chans[c.channel]? = some r) (hd : Registered s w d) :
    s.completeCapture w c = answeredDeferred { s with
      captures := s.captures.set w none
      windows := s.windows.set w { s.windows[w] with
        chans := s.windows[w].chans.set c.channel
          { r with offset := BitVec.ofInt 16 (limit16 (r.offset.toInt - captureMean c.acc c.n)) }
        stale := if s.windows[w].defn.mode = .storeBoth then true else s.windows[w].stale
        activity := .idle, deferred := none }
      sweep := s.sweep.map fun z =>
        if s.windows[w].defn.mode = .storeBoth ∧ z.window = w then { z with restaled := true } else z }
      d .ok (le16 r.offset ++ i16 (limit16 (r.offset.toInt - captureMean c.acc c.n))
        ++ i32 (captureMean c.acc c.n)) := by
  have hget : s.windows[w].chans.getD c.channel .default = r := by
    rw [List.getD_eq_getElem?_getD, hr]
    rfl
  obtain ⟨h1, h2⟩ := hd
  unfold completeCapture
  simp only [hget]
  by_cases hm : s.windows[w].defn.mode = .storeBoth
  · simp only [hm, if_true, true_and]
    rw [endActivity_of_registered (d := d) (by
      refine ⟨?_, h2⟩
      simp only [setStale_eq, setWindow, setCapture, get_set_self, h1])]
    simp only [setStale_eq, setWindow, setCapture, get_set_self, set_set_self]
  · simp only [hm, if_false, false_and]
    rw [endActivity_of_registered (d := d) (by
      refine ⟨?_, h2⟩
      simp only [setWindow, setCapture, get_set_self, h1])]
    simp only [setWindow, setCapture, get_set_self, set_set_self, Option.map_id']

/-- Settles O30: the sample added, and the capture that it fills. -/
theorem captureAccumulatesAndCompletes : Obligations.CaptureAccumulatesAndCompletes := by
  intro s w x
  have hcases := s.accumulate_cases w x
  refine ⟨fun hn => ?_, ?_⟩
  · rcases hcases with ⟨k, hk, _⟩ | ⟨k, hk, _⟩ | ⟨_, h⟩
    · cases hk.symm.trans hn
    · cases hk.symm.trans hn
    · exact h
  intro c r hc v
  refine ⟨fun hno => ?_, fun hx hlt => ?_, fun d hx hfull hr hd hn => ?_⟩
  · rcases hcases with ⟨k, hk, hch, hcount, _⟩ | ⟨k, hk, hch, hcount, _⟩ | ⟨_, h⟩
    · cases hk.symm.trans hc
      omega
    · cases hk.symm.trans hc
      omega
    · exact h
  · rcases hcases with ⟨k, hk, _, hcount, _⟩ | ⟨k, hk, _, _, h⟩ | ⟨hno, _⟩
    · cases hk.symm.trans hc
      omega
    · cases hk.symm.trans hc
      exact h
    · exact absurd ⟨hx, by omega⟩ (hno c hc)
  · rcases hcases with ⟨k, hk, _, _, h⟩ | ⟨k, hk, _, hcount, _⟩ | ⟨hno, _⟩
    · cases hk.symm.trans hc
      obtain ⟨hlow, hhigh⟩ := captureMean_bounds (c.acc + x.result.pre) c.n
      exact ⟨captureMean (c.acc + x.result.pre) c.n, _, hlow, hhigh, limit16_eq _,
        h.trans (State.completeCapture_of_registered hr hd)⟩
    · cases hk.symm.trans hc
      omega
    · exact absurd ⟨hx, by omega⟩ (hno c hc)

/-- Settles O31: the checks, and the deadline's end of a registered capture. -/
theorem zeroCaptureStartsAndTimesOut : Obligations.ZeroCaptureStartsAndTimesOut := by
  refine ⟨fun s w trn k channel n limit hl => ?_, fun s w c d hc hdl hlt hd => ?_⟩
  · have hrun := next_command_of_takes hl
      (s.takeZeroCapture_of_held k (windowUnit w) trn w channel n limit)
    refine ⟨fun hs => hrun.trans ?_, fun hs ha => hrun.trans ?_, fun hs ha hg => hrun.trans ?_,
      fun hs ha hg => hrun.trans ?_⟩
    · rw [if_neg hs]
    · rw [if_pos hs, if_neg ha]
    · rw [if_pos hs, if_pos ha, if_neg hg]
    · rw [if_pos hs, if_pos ha, if_pos hg]
  · have hpass : s.passCapture w = (s.setCapture w none).endActivity w .timeout (u16 c.count) := by
      rw [State.passCapture, hc]
      exact if_pos (by simpa using ⟨hdl, hlt⟩)
    have hreg : Registered (s.setCapture w none) w d := State.registered_of_eq hd rfl rfl
    show Host.Outcome.next (s.passCapture w) = _
    rw [hpass, State.endActivity_of_registered hreg]
    rfl

/-! ### The monitor commands (R101, R102, R104) -/

theorem decodeDirection_of_gt {b : Byte} (h : 2 < b.toNat) : decodeDirection b = none := by
  unfold decodeDirection
  rw [if_neg (by rintro rfl; simp at h), if_neg (by rintro rfl; simp at h),
    if_neg (by rintro rfl; simp at h)]

theorem decodeMonMode_of_gt {b : Byte} (h : 1 < b.toNat) : decodeMonMode b = none := by
  unfold decodeMonMode
  rw [if_neg (by rintro rfl; simp at h), if_neg (by rintro rfl; simp at h)]

section
variable (s : State) {w : Fin 16} {window channel : Byte} (level : Half) {hysteresis : Half}
  {direction mode : Byte}

theorem bindingOf_of_good {dir : Direction} {md : MonMode} (hw : window.toNat = w.val)
    (hc : channel.toNat < s.windows[w].defn.count) (hh : hysteresis.toNat ≤ 4095)
    (hdir : dir.code = direction) (hmd : md.code = mode) :
    bindingOf s window channel level hysteresis direction mode =
      some ⟨w, channel.toNat, level, hysteresis.toNat, dir, md⟩ := by
  subst hdir hmd
  rw [bindingOf, decodeIndex_of_eq hw, decodeDirection_code, decodeMonMode_code]
  exact if_pos (by simpa using ⟨hc, hh⟩)

/-- A value out of range gives no binding. -/
theorem bindingOf_of_bad (h : 16 ≤ window.toNat ∨ 4095 < hysteresis.toNat ∨ 2 < direction.toNat
    ∨ 1 < mode.toNat ∨ ∃ w : Fin 16, window.toNat = w.val ∧ s.windows[w].defn.count ≤ channel.toNat) :
    bindingOf s window channel level hysteresis direction mode = none := by
  by_contra hne
  obtain ⟨b, hb⟩ := Option.ne_none_iff_exists'.1 hne
  simp only [bindingOf, Option.bind_eq_bind, Option.bind_eq_some_iff, Option.pure_def,
    Option.ite_none_right_eq_some, Bool.and_eq_true, decide_eq_true_eq] at hb
  obtain ⟨w, hw, d, hd, m, hm, ⟨hc, hh⟩, _⟩ := hb
  rcases h with h | h | h | h | ⟨w', hw', hc'⟩
  · cases (decodeIndex_of_ge h).symm.trans hw
  · omega
  · cases (decodeDirection_of_gt h).symm.trans hd
  · cases (decodeMonMode_of_gt h).symm.trans hm
  · cases (decodeIndex_of_eq hw').symm.trans hw
    omega

end

/-- Settles O32: the values out of range, and the monitor bound or armed. -/
theorem monSetAndArm : Obligations.MonSetAndArm := by
  refine ⟨fun s trn k monitor window channel level hysteresis direction mode hl => ?_,
    fun s trn k monitor hl => ?_⟩
  · have hrun := next_command_of_takes hl (s.takeMonSet_of_held k 0x20 trn monitor window channel level
      hysteresis direction mode)
    have hbad (h : bindingOf s window channel level hysteresis direction mode = none) :
        exec (.monSet trn monitor window channel level hysteresis direction mode) s =
          .next (replied s k 0x20 trn .badValue []) := by
      refine hrun.trans ?_
      rw [h]
      cases decodeIndex monitor <;> rfl
    refine ⟨fun h => ?_, fun m w hm hw => ⟨fun hc => ?_, fun dir md hc hh hdir hmd => ?_⟩⟩
    · rcases h with h | h
      · refine hrun.trans ?_
        rw [decodeIndex_of_ge h]
        rfl
      · exact hbad (bindingOf_of_bad s level (by tauto))
    · exact hbad (bindingOf_of_bad s level (.inr (.inr (.inr (.inr ⟨w, hw, hc⟩)))))
    · refine hrun.trans ?_
      rw [decodeIndex_of_eq hm, bindingOf_of_good s level hw hc hh hdir hmd]
      rfl
  · have hrun := next_command_of_takes hl (s.takeMonArm_of_held k 0x20 trn monitor)
    refine ⟨fun h => hrun.trans ?_, fun m hm => ⟨fun hs => hrun.trans ?_, fun hs => hrun.trans ?_⟩⟩
    · rw [decodeIndex_of_ge h]
      rfl
    · rw [decodeIndex_of_eq hm, Option.map_some, if_pos hs]
      rfl
    · rw [decodeIndex_of_eq hm, Option.map_some, if_neg hs]
      rfl

/-- A byte behind the first n bytes. -/
theorem byteAt_behind {p head tail : List Byte} {n : Nat} (h : p = head ++ tail)
    (hn : head.length = n) (i : Nat) : byteAt p (n + i) = byteAt tail i := by
  rw [h, ← hn, byteAt_append_length]

section
variable (k : Fin 16) (m : Monitor)

/-- A monitor's binding in MON_QUERY's reply, 8 bytes (R195). -/
def monitorBindBytes : List Byte := (m.bind.map fun b =>
  [u8 b.window.val, u8 b.channel] ++ le16 b.level ++ u16 b.hysteresis
    ++ [b.direction.code, b.mode.code]).getD (zeros 8)

/-- Its record, 12 bytes. -/
def monitorRecordBytes : List Byte := (m.record.map crossingBytes).getD (zeros 12)

/-- The bytes before the binding. -/
def monitorHead : List Byte := [u8 k.val, m.state.code, flagBits [m.bind.isSome, m.record.isSome]]

theorem monitorPayload_eq : monitorPayload k m = monitorHead k m ++ (monitorBindBytes m
    ++ (m.side.code :: u16 m.count ++ monitorRecordBytes m)) := by
  rw [monitorPayload]
  simp only [List.append_assoc]
  rfl

theorem monitorBindBytes_length : (monitorBindBytes m).length = 8 := by
  unfold monitorBindBytes
  cases m.bind <;> rfl

theorem monitorRecordBytes_length : (monitorRecordBytes m).length = 12 := by
  unfold monitorRecordBytes
  cases m.record <;> rfl

/-- The side stands at byte 11. -/
theorem monitorPayload_behind_bind : monitorPayload k m = (monitorHead k m ++ monitorBindBytes m)
      ++ (m.side.code :: u16 m.count ++ monitorRecordBytes m)
    ∧ (monitorHead k m ++ monitorBindBytes m).length = 11 := by
  refine ⟨?_, ?_⟩
  · rw [monitorPayload_eq, List.append_assoc]
  · rw [List.length_append, monitorBindBytes_length]
    rfl

/-- The record stands from byte 14. -/
theorem monitorPayload_behind_side : monitorPayload k m =
      (monitorHead k m ++ (monitorBindBytes m ++ (m.side.code :: u16 m.count))) ++ monitorRecordBytes m
    ∧ (monitorHead k m ++ (monitorBindBytes m ++ (m.side.code :: u16 m.count))).length = 14 := by
  refine ⟨?_, ?_⟩
  · rw [monitorPayload_eq, List.append_assoc, List.append_assoc]
  · rw [List.length_append, List.length_append, monitorBindBytes_length]
    rfl

theorem monitorPayload_length : (monitorPayload k m).length = 26 := by
  obtain ⟨h, hlen⟩ := monitorPayload_behind_side k m
  rw [h, List.length_append, hlen, monitorRecordBytes_length]

end

/-- Settles O34: the fields outside the two records, and each record present or absent. -/
theorem monQueryReportsMonitor : Obligations.MonQueryReportsMonitor := by
  intro s trn k monitor hl
  have hrun := next_command_of_takes hl (s.takeMonQuery_of_held k 0x20 trn monitor)
  refine ⟨fun h => hrun.trans (by rw [decodeIndex_of_ge h]; rfl), ?_⟩
  intro m hm x
  have hbind (i : Nat) := byteAt_behind (monitorPayload_eq m x) rfl i
  have hbind2 (i : Nat) := halfAt_behind (monitorPayload_eq m x) rfl i
  have hbind4 (i : Nat) := wordAt_behind (monitorPayload_eq m x) rfl i
  obtain ⟨hs, hslen⟩ := monitorPayload_behind_bind m x
  obtain ⟨hr, hrlen⟩ := monitorPayload_behind_side m x
  have hmon : u8 m.val = monitor := by
    rw [← hm]
    exact BitVec.ofNat_toNat ..
  obtain ⟨h0, h1⟩ := flagBits_two x.bind.isSome x.record.isSome
  refine ⟨monitorPayload m x, hrun.trans (by rw [decodeIndex_of_eq hm]; rfl),
    monitorPayload_length m x, hmon, rfl, byteAt_behind hs hslen 0,
    (halfAt_behind hs hslen 1).trans (half_of_bytes _), h0, h1, fun b hb => ?_, fun hb => ?_,
    fun r hrec => ?_, fun hrec => ?_⟩
  · have hbytes : monitorBindBytes x = [u8 b.window.val, u8 b.channel] ++ le16 b.level
        ++ u16 b.hysteresis ++ [b.direction.code, b.mode.code] := by
      rw [monitorBindBytes, hb]
      rfl
    rw [hbytes] at hbind hbind2
    exact ⟨hbind 0, hbind 1, (hbind2 2).trans (half_of_bytes _), (hbind2 4).trans (half_of_bytes _),
      hbind 6, hbind 7⟩
  · have hbytes : monitorBindBytes x = zeros 8 := by
      rw [monitorBindBytes, hb]
      rfl
    rw [hbytes] at hbind4
    obtain ⟨hz, hz'⟩ := wordAt_zeros_eight (x.side.code :: u16 x.count ++ monitorRecordBytes x)
    exact ⟨(hbind4 0).trans hz, (hbind4 4).trans hz'⟩
  · have hbytes : monitorRecordBytes x = crossingBytes r := by
      rw [monitorRecordBytes, hrec]
      rfl
    rw [hbytes] at hr
    refine ⟨(byteAt_behind hr hrlen 0).trans ?_, byteAt_behind hr hrlen 1,
      (halfAt_behind hr hrlen 2).trans (half_of_bytes _),
      (wordAt_behind hr hrlen 4).trans (word_of_bytes _),
      (wordAt_behind hr hrlen 8).trans (word_of_bytes _)⟩
    show edgeCode r.direction = _
    cases r.direction <;> rfl
  · have hbytes : monitorRecordBytes x = zeros 12 := by
      rw [monitorRecordBytes, hrec]
      rfl
    rw [hbytes] at hr
    exact ⟨(wordAt_behind hr hrlen 0).trans (by decide), (wordAt_behind hr hrlen 4).trans (by decide),
      (wordAt_behind hr hrlen 8).trans (by decide)⟩

end Sys2Proof.Machine

/-! PROOFS. The timebase and the fault commands (chapter 9). -/

namespace Sys2Proof.Machine

/-! ### The timebase (R143 to R147) -/

namespace State
variable (s : State)

theorem countEvent_eq (src : TbSource) : s.countEvent src = { s with
    tbValue := if (s.phase = .loaded ∨ s.phase = .serving) ∧ s.tbSource = src then s.tbValue + 1
      else s.tbValue } := by
  have hiff : (s.loadDone && s.tbSource = src) = true ↔
      (s.phase = .loaded ∨ s.phase = .serving) ∧ s.tbSource = src := by
    rw [Bool.and_eq_true, loadDone_iff, decide_eq_true_eq]
  unfold countEvent
  by_cases h : (s.phase = .loaded ∨ s.phase = .serving) ∧ s.tbSource = src
  · rw [if_pos (hiff.2 h), if_pos h]
  · rw [if_neg (mt hiff.1 h), if_neg h]

theorem countEvent_of_not {src : TbSource}
    (h : ¬((s.phase = .loaded ∨ s.phase = .serving) ∧ s.tbSource = src)) : s.countEvent src = s := by
  rw [countEvent_eq, if_neg h]

/-- The event counts what it counted when the step began: the events taken before it change none of
it. -/
theorem countEvent_takeEvents (es : List StepEvent) :
    (es.foldl takeEvent s.stepBase).countEvent .internal =
      { es.foldl takeEvent s.stepBase with
        tbValue := if (s.phase = .loaded ∨ s.phase = .serving) ∧ s.tbSource = .internal
          then s.tbValue + 1 else s.tbValue } := by
  obtain ⟨_, hphase, hvalue, hsource⟩ := s.stepBase.takeEvents_keeps es
  rw [stepBase_phase] at hphase
  rw [stepBase_tbValue] at hvalue
  rw [stepBase_tbSource] at hsource
  rw [countEvent_eq, ← hphase, ← hvalue, ← hsource]

/-- The step that reaches no deadline and takes no BREAK only counts. -/
theorem timebaseIncrement_of_ahead {early late : List StepEvent} (h : DeadlinesFrom s (s.usBase + 2))
    (he : .lineBreak ∉ early) (hl : .lineBreak ∉ late) :
    exec (.timebaseIncrement early late) s = .next (s.stepBase.countEvent .internal) := by
  have hstep : DeadlinesFrom s.stepBase (s.stepBase.usBase + 1) := h
  have hcount : DeadlinesFrom (s.stepBase.countEvent .internal)
      ((s.stepBase.countEvent .internal).usBase + 1) := by
    rw [countEvent_eq]
    exact h
  show Host.Outcome.next _ = _
  rw [takeEvents_of_ahead hstep he, takeEvents_of_ahead hcount hl, passDeadlines_of_ahead hcount]

end State

theorem decodeSource_of_le {b : Byte} (h : b.toNat ≤ 1) :
    decodeSource b = some (if b = 0 then .internal else .strobe) := by
  have hb : b = 0 ∨ b = 1 := by bv_omega
  rcases hb with rfl | rfl
  · rfl
  · rfl

theorem decodeSource_of_gt {b : Byte} (h : 1 < b.toNat) : decodeSource b = none := by
  unfold decodeSource
  rw [if_neg (by rintro rfl; simp at h), if_neg (by rintro rfl; simp at h)]

theorem decodeEdge_of_le {b : Byte} (h : b.toNat ≤ 1) :
    decodeEdge b = some (if b = 0 then .rising else .falling) := by
  have hb : b = 0 ∨ b = 1 := by bv_omega
  rcases hb with rfl | rfl
  · rfl
  · rfl

theorem decodeEdge_of_gt {b : Byte} (h : 1 < b.toNat) : decodeEdge b = none := by
  unfold decodeEdge
  rw [if_neg (by rintro rfl; simp at h), if_neg (by rintro rfl; simp at h)]

/-- Settles O35: the events of a step as their rows, the strobe's edges, and the two commands. -/
theorem timebaseCountsAndIsSet : Obligations.TimebaseCountsAndIsSet := by
  refine ⟨?_, fun s trn k source edge preset hl => ?_⟩
  · intro s e early late counts run b counted
    refine ⟨?_, fun h he hl => ?_, fun t ht => ?_, fun hc hs hed => ?_, fun hno => ?_⟩
    · show Host.Outcome.next _ = _
      rw [State.countEvent_takeEvents, runAll_append, runAll_deadlineRows, runAll_rows, runAll_rows]
      rfl
    · refine (s.timebaseIncrement_of_ahead h he hl).trans ?_
      rw [State.countEvent_eq]
      rfl
    · have hrun : ((late.foldl State.takeEvent ((early.foldl State.takeEvent s.stepBase).countEvent
          .internal)).passDeadlines) = t := Host.Outcome.next.inj ht
      obtain ⟨hahead, hus, _⟩ := State.passDeadlines_keeps (late.foldl State.takeEvent
        ((early.foldl State.takeEvent s.stepBase).countEvent .internal))
      obtain ⟨hlate, _⟩ := ((early.foldl State.takeEvent s.stepBase).countEvent
        .internal).takeEvents_keeps late
      obtain ⟨hearly, _⟩ := s.stepBase.takeEvents_keeps early
      have hbase : t.usBase = s.usBase + 1 := by
        rw [← hrun, hus, hlate, State.countEvent_takeEvents]
        exact hearly
      rw [hrun] at hahead hus
      exact ⟨hbase, hus ▸ hahead⟩
    · show Host.Outcome.next (if s.tbEdge = e then s.countEvent .strobe else s) = _
      rw [if_pos hed, State.countEvent_eq, if_pos ⟨hc, hs⟩]
    · show Host.Outcome.next (if s.tbEdge = e then s.countEvent .strobe else s) = _
      split
      · rename_i hed
        rw [State.countEvent_of_not]
        rintro ⟨hc, hs⟩
        rcases hno with h | h | h
        · exact h hc
        · cases h.symm.trans hs
        · exact h hed
      · rfl
  · have hset := next_command_of_takes hl (s.takeTbSet_of_held k 0x30 trn source edge preset)
    have hread := next_command_of_takes hl (s.takeTbRead_of_held k 0x30 trn)
    refine ⟨fun h => hset.trans ?_, fun hs he => hset.trans ?_, hread.trans ?_⟩
    · rcases h with h | h
      · rw [decodeSource_of_gt h]
        rfl
      · rw [decodeEdge_of_gt h]
        cases decodeSource source <;> rfl
    · rw [decodeSource_of_le hs, decodeEdge_of_le he]
      rfl
    · have h1 : s.tbSource.code = if s.tbSource = .internal then 0 else 1 := by
        cases s.tbSource <;> rfl
      have h2 : edgeCode s.tbEdge = if s.tbEdge = .rising then 0 else 1 := by
        cases s.tbEdge <;> rfl
      rw [h1, h2]

/-! ### The fault commands (R152 to R155) -/

theorem flagBits_three (a b c : Bool) :
    (flagBits [a, b, c]).getLsbD 0 = a ∧ (flagBits [a, b, c]).getLsbD 1 = b
      ∧ (flagBits [a, b, c]).getLsbD 2 = c := by
  revert a b c
  decide

theorem faultPayload_none (n : Nat) (overflow : Bool) : faultPayload n overflow none =
    [BitVec.ofNat 8 n, if overflow then 1 else 0] ++ List.replicate 14 0 := by
  cases overflow <;> rfl

theorem faultPayload_some (n : Nat) (overflow : Bool) (r : FaultRecord) :
    faultPayload n overflow (some r) =
      [BitVec.ofNat 8 n, if overflow then 3 else 2] ++ faultBytes r := by
  cases overflow <;> rfl

theorem isEmpty_ite {α β : Type} [DecidableEq (List α)] (l : List α) (a b : β) :
    (if l.isEmpty then a else b) = if l = [] then a else b :=
  if_congr List.isEmpty_iff rfl rfl

/-- Settles O37: the empty list, the oldest record's fields, and the clear. -/
theorem faultCommandsReportAndRemove : Obligations.FaultCommandsReportAndRemove := by
  refine ⟨fun s trn k hl => ⟨?_, fun r rest hf => ?_⟩, fun s trn k hl => ?_⟩
  · intro hf empty
    refine ⟨(next_command_of_takes hl (s.takeFaultPeek_of_held k 0x30 trn)).trans ?_,
      (next_command_of_takes hl (s.takeFaultPop_of_held_of_nil k 0x30 trn hf)).trans ?_⟩
    · rw [hf, List.head?_nil, faultPayload_none]
      rfl
    · rw [faultPayload_none]
      rfl
  · obtain ⟨h0, h1, h2⟩ := flagBits_three r.info.window.isSome r.info.addr.isSome r.info.hostTag.isSome
    refine ⟨faultBytes r, rfl, rfl, rfl, h0, h1, h2, ?_, word_of_bytes _, ?_, rfl, word_of_bytes _,
      (next_command_of_takes hl (s.takeFaultPeek_of_held k 0x30 trn)).trans ?_,
      (next_command_of_takes hl (s.takeFaultPop_of_held_of_cons k 0x30 trn hf)).trans ?_⟩
    · show u8 ((r.info.window.map Fin.val).getD 0) = _
      cases r.info.window <;> rfl
    · show u8 ((r.info.hostTag.map Fin.val).getD 0) = _
      cases r.info.hostTag <;> rfl
    · rw [hf, List.head?_cons, faultPayload_some]
      rfl
    · rw [faultPayload_some, isEmpty_ite]
  · refine (next_command_of_takes hl (s.takeFaultClear_of_held k 0x30 trn)).trans ?_
    rw [flagBits_singleton, isEmpty_ite]
    rfl

end Sys2Proof.Machine

/-! PROOFS. The line side of the link (sections 10.3, 10.8, 10.9): the receiver, BREAK and the
transmitter, and the framing that the receiver undoes. -/

namespace Sys2Proof.Machine

/-! ### The receiver's table (R158 to R160) -/

/-- The packet in assembly is the one its kept bytes spell. -/
theorem Receiver.packet_eq (r : Receiver) :
    let body := r.bytes.take (4 + r.length)
    r.packet = ⟨body.getD 1 0, body.getD 2 0, body.getD 3 0, body.drop 4⟩ := by
  have hbyte {j : Nat} (hj : j < 4) : byteAt r.bytes j = (r.bytes.take (4 + r.length)).getD j 0 :=
    (byteAt_take (p := r.bytes) (show j < 4 + r.length by omega)).symm
  have hdrop : (r.bytes.drop 4).take r.length = (r.bytes.take (4 + r.length)).drop 4 := by
    rw [List.drop_take, Nat.add_sub_cancel_left]
  dsimp only
  rw [packet, hbyte (by omega), hbyte (by omega), hbyte (by omega), hdrop]

namespace State

theorem linkReceives_iff (s : State) :
    s.linkReceives = true ↔ s.phase = .serving ∧ s.breakLow = false := by
  simp [linkReceives]

theorem exec_linkByteReceived_of_receives {s : State} (h : s.linkReceives = true) (b : Byte) :
    exec (.linkByteReceived b) s = .next (s.receive b) :=
  congrArg Host.Outcome.next (if_pos h)

section
variable {s : State} {b : Byte}

theorem takeByte_of_sync (hs : s.rx.state = .hunt) :
    s.takeByte 0xA5 = { s with rx := ⟨.header, [], s.usBase⟩ } := by
  simp only [takeByte, hs]
  rfl

theorem takeByte_of_hunt (hs : s.rx.state = .hunt) (hb : b ≠ 0xA5) : s.takeByte b = s := by
  simp only [takeByte, hs]
  exact if_neg hb

theorem takeByte_of_length (hs : s.rx.state = .header) (hn : s.rx.bytes.length = 0)
    (hb : b.toNat ≤ 48) : s.takeByte b = s.keepByte b .header := by
  simp only [takeByte, hs]
  rw [if_pos hn, if_neg (by omega)]

theorem takeByte_of_overlong (hs : s.rx.state = .header) (hn : s.rx.bytes.length = 0)
    (hb : 48 < b.toNat) :
    s.takeByte b = { s.dropPacket with counters := s.counters.bumpFraming } := by
  simp only [takeByte, hs]
  rw [if_pos hn, if_pos hb]

theorem takeByte_of_header (hs : s.rx.state = .header) (h1 : 1 ≤ s.rx.bytes.length)
    (h2 : s.rx.bytes.length ≤ 2) : s.takeByte b = s.keepByte b .header := by
  simp only [takeByte, hs]
  rw [if_neg (by omega), if_pos (by omega)]

theorem takeByte_of_trn (hs : s.rx.state = .header) (hn : s.rx.bytes.length = 3) :
    s.takeByte b = s.keepByte b (if s.rx.length = 0 then .check else .payload) := by
  simp only [takeByte, hs]
  rw [if_neg (by omega), if_neg (by omega)]

theorem takeByte_of_payload (hs : s.rx.state = .payload) :
    s.takeByte b =
      s.keepByte b (if s.rx.bytes.length + 1 < 4 + s.rx.length then .payload else .check) := by
  simp only [takeByte, hs]

theorem takeByte_of_first_check (hs : s.rx.state = .check)
    (hn : s.rx.bytes.length = 4 + s.rx.length) : s.takeByte b = s.keepByte b .check := by
  simp only [takeByte, hs]
  exact if_pos (by omega)

theorem takeByte_of_second_check (hs : s.rx.state = .check)
    (hn : s.rx.bytes.length = 5 + s.rx.length) : s.takeByte b = s.checkPacket b := by
  simp only [takeByte, hs]
  exact if_neg (by omega)

theorem checkPacket_of_good (h : s.rx.computedCrc = b ++ byteAt s.rx.bytes (4 + s.rx.length)) :
    s.checkPacket b = s.dropPacket.handPacket s.rx.packet :=
  if_pos h

theorem checkPacket_of_bad (h : s.rx.computedCrc ≠ b ++ byteAt s.rx.bytes (4 + s.rx.length)) :
    s.checkPacket b =
      { s.dropPacket with counters := { s.counters with crc := satInc 65535 s.counters.crc } } :=
  if_neg h

end

end State

/-- Settles O38: a byte in time meets the table's row, a late one a receiver in HUNT. -/
theorem receiverFollowsTableAndGap : Obligations.ReceiverFollowsTableAndGap := by
  refine ⟨fun s b hp hb => ?_, fun s => ⟨fun hs ht => ?_, fun h => ?_⟩⟩
  · intro n len run high kept dropped framed
    have hopen : s.linkReceives = true := s.linkReceives_iff.2 ⟨hp, hb⟩
    have hrun : run = .next (s.receive b) := State.exec_linkByteReceived_of_receives hopen b
    have hearly (h : s.rx.state = .hunt ∨ s.usBase < s.rx.lastAt + 2000) :
        run = .next (s.seeHigh.takeByte b) := by rw [hrun, receive_of_early h]
    have hpacket : s.seeHigh.rx.packet = _ := s.rx.packet_eq
    refine ⟨fun hs hb => ?_, fun hs hb => ?_, fun hs ht => ?_, fun ht => ?_⟩
    · rw [hearly (.inl hs), hb, State.takeByte_of_sync (s := s.seeHigh) hs]
      rfl
    · rw [hearly (.inl hs), State.takeByte_of_hunt (s := s.seeHigh) hs hb]
      rfl
    · have hframed : framed.linkReceives = true := hopen
      rw [hrun, receive_of_late hs ht, State.exec_linkByteReceived_of_receives hframed,
        receive_of_early (.inl rfl)]
      rfl
    · refine ⟨fun hs hn hb => ?_, fun hs hn hb => ?_, fun hs h1 h2 => ?_, fun hs hn => ?_,
        fun hs hn => ?_, fun hs hn => ?_, fun hs hn => ?_, fun hs hn => ?_⟩
      · exact (hearly (.inr ht)).trans (by rw [State.takeByte_of_length (s := s.seeHigh) hs hn hb]; rfl)
      · exact (hearly (.inr ht)).trans (by rw [State.takeByte_of_overlong (s := s.seeHigh) hs hn hb]; rfl)
      · exact (hearly (.inr ht)).trans (by rw [State.takeByte_of_header (s := s.seeHigh) hs h1 h2]; rfl)
      · exact (hearly (.inr ht)).trans (by rw [State.takeByte_of_trn (s := s.seeHigh) hs hn]; rfl)
      · refine (hearly (.inr ht)).trans ?_
        rw [State.takeByte_of_payload (s := s.seeHigh) hs]
        exact congrArg (fun st => Host.Outcome.next (s.seeHigh.keepByte b st)) (if_pos hn)
      · refine (hearly (.inr ht)).trans ?_
        rw [State.takeByte_of_payload (s := s.seeHigh) hs]
        exact congrArg (fun st => Host.Outcome.next (s.seeHigh.keepByte b st)) (if_neg hn.not_lt)
      · exact (hearly (.inr ht)).trans (by rw [State.takeByte_of_first_check (s := s.seeHigh) hs hn]; rfl)
      · intro body
        refine ⟨fun hc => (hearly (.inr ht)).trans ?_, fun hc => (hearly (.inr ht)).trans ?_⟩
        · rw [State.takeByte_of_second_check (s := s.seeHigh) hs hn,
            State.checkPacket_of_bad (s := s.seeHigh) hc]
          rfl
        · rw [State.takeByte_of_second_check (s := s.seeHigh) hs hn,
            State.checkPacket_of_good (s := s.seeHigh) hc, hpacket]
          rfl
  · show Host.Outcome.next s.passGap = _
    rw [State.passGap_of_reached hs ht]
    rfl
  · show Host.Outcome.next s.passGap = _
    rw [State.passGap_of_ahead fun hs => h.resolve_left hs]

/-! ### A framed packet (R189, R196) -/

/-- Where the receiver stands with n bytes of a packet of len payload bytes kept (R158). -/
def rxStateAt (len n : Nat) : RxState :=
  if n < 4 then .header else if n < 4 + len then .payload else .check

/-- The receiver in the midst of a packet of len payload bytes. -/
def State.assembling (s : State) (len : Nat) (bytes : List Byte) : State :=
  { s with rxHigh := true, rx := ⟨rxStateAt len bytes.length, bytes, s.usBase⟩ }

theorem rxStateAt_of_header (len : Nat) {n : Nat} (h : n < 4) : rxStateAt len n = .header := if_pos h

theorem rxStateAt_of_ge (len : Nat) {n : Nat} (h : 4 ≤ n) :
    rxStateAt len n = if n < 4 + len then .payload else .check :=
  if_neg (Nat.not_lt.2 h)

theorem rxStateAt_of_payload {len n : Nat} (h : 4 ≤ n) (hn : n < 4 + len) :
    rxStateAt len n = .payload := by
  rw [rxStateAt_of_ge len h, if_pos hn]

theorem rxStateAt_of_check {len n : Nat} (h : 4 + len ≤ n) : rxStateAt len n = .check := by
  rw [rxStateAt, if_neg (by omega), if_neg (by omega)]

theorem byteAt_append_zero {p : List Byte} (h : p ≠ []) (q : List Byte) :
    byteAt (p ++ q) 0 = byteAt p 0 := by
  cases p with
  | nil => exact absurd rfl h
  | cons b p => rfl

namespace State
variable {s : State} {len : Nat} {bytes : List Byte}

theorem keepByte_assembling (b : Byte) {st : RxState} (h : st = rxStateAt len (bytes.length + 1)) :
    (s.assembling len bytes).seeHigh.keepByte b st = s.assembling len (bytes ++ [b]) := by
  have hl : st = rxStateAt len (bytes ++ [b]).length := by
    rw [List.length_append, h]
    rfl
  subst hl
  rfl

/-- A byte of the packet, up to the first check byte, is kept. -/
theorem receive_assembling {b : Byte} (hlen : len ≤ 48)
    (hfirst : (byteAt (bytes ++ [b]) 0).toNat = len) (hn : bytes.length < 5 + len) :
    (s.assembling len bytes).receive b = s.assembling len (bytes ++ [b]) := by
  rw [receive_of_early (.inr (Nat.lt_add_of_pos_right (by decide)))]
  have hstate {st : RxState} (h : rxStateAt len bytes.length = st) :
      (s.assembling len bytes).seeHigh.rx.state = st := h
  by_cases h0 : bytes.length = 0
  · have hb : b.toNat = len := by
      rw [List.length_eq_zero_iff.1 h0] at hfirst
      exact hfirst
    rw [takeByte_of_length (hstate (rxStateAt_of_header len (by omega))) h0 (by omega),
      keepByte_assembling b (rxStateAt_of_header len (by omega)).symm]
  · have hlength : (s.assembling len bytes).seeHigh.rx.length = len := by
      rw [byteAt_append_zero (fun h => h0 (by rw [h]; rfl))] at hfirst
      exact hfirst
    by_cases h3 : bytes.length < 3
    · rw [takeByte_of_header (hstate (rxStateAt_of_header len (by omega)))
        (Nat.one_le_iff_ne_zero.2 h0) (Nat.le_of_lt_succ h3),
        keepByte_assembling b (rxStateAt_of_header len (by omega)).symm]
    · by_cases h4 : bytes.length = 3
      · have hnext : rxStateAt len (bytes.length + 1) = if len = 0 then .check else .payload := by
          rw [rxStateAt_of_ge len (by omega), h4]
          by_cases hz : len = 0
          · rw [if_pos hz, if_neg (by omega)]
          · rw [if_neg hz, if_pos (by omega)]
        rw [takeByte_of_trn (hstate (rxStateAt_of_header len (by omega))) h4, hlength,
          keepByte_assembling b hnext.symm]
      · by_cases hp : bytes.length < 4 + len
        · rw [takeByte_of_payload (hstate (rxStateAt_of_payload (by omega) hp)), hlength]
          exact keepByte_assembling b (rxStateAt_of_ge len (n := bytes.length + 1) (by omega)).symm
        · have hfull : bytes.length = 4 + len := by omega
          rw [takeByte_of_first_check (hstate (rxStateAt_of_check hfull.ge)) (hlength.symm ▸ hfull),
            keepByte_assembling b (rxStateAt_of_check (by omega)).symm]

theorem receiveAll_cons (h : s.linkReceives = true) (b : Byte) (bs : List Byte) :
    receiveAll s (b :: bs) = receiveAll (s.receive b) bs := by
  rw [receiveAll, List.foldl_cons, exec_linkByteReceived_of_receives h]
  rfl

/-- The bytes of the packet, up to the first check byte, are kept. -/
theorem receiveAll_assembling (hopen : s.linkReceives = true) (hlen : len ≤ 48) (rest : List Byte) :
    ∀ bytes, (byteAt (bytes ++ rest) 0).toNat = len → (bytes ++ rest).length ≤ 5 + len →
      receiveAll (s.assembling len bytes) rest = s.assembling len (bytes ++ rest) := by
  induction rest with
  | nil =>
    intro bytes _ _
    rw [List.append_nil]
    rfl
  | cons b rest ih =>
    intro bytes hfirst hn
    have hsplit : bytes ++ b :: rest = (bytes ++ [b]) ++ rest := by simp
    have hb : (byteAt (bytes ++ [b]) 0).toNat = len := by
      rw [hsplit, byteAt_append_zero (by simp)] at hfirst
      exact hfirst
    have hlt : bytes.length < 5 + len := by
      rw [List.length_append, List.length_cons] at hn
      omega
    rw [receiveAll_cons (s := s.assembling len bytes) hopen, receive_assembling hlen hb hlt, ih, hsplit]
    · rwa [← hsplit]
    · rwa [← hsplit]

/-- That the line was high makes no difference to a packet handed over: its own last stop bit is
high. -/
theorem handPacket_seeHigh (s : State) (p : Packet) : s.seeHigh.handPacket p = s.handPacket p := rfl

end State

theorem receiveAll_append (s : State) (bs cs : List Byte) :
    receiveAll s (bs ++ cs) = receiveAll (receiveAll s bs) cs := by
  unfold receiveAll
  rw [List.foldl_append]

/-- Settles O52: the sync byte starts the packet, its bytes are kept, and the last one finds the check
value that the sender put there. -/
theorem framedPacketIsReceived : Obligations.FramedPacketIsReceived := by
  intro s p hp hb hs hlen
  have hopen : s.linkReceives = true := s.linkReceives_iff.2 ⟨hp, hb⟩
  obtain ⟨unit, code, trn, payload⟩ := p
  replace hlen : payload.length ≤ 48 := hlen
  let body : List Byte := [u8 payload.length, unit, code, trn] ++ payload
  let low : Byte := (crc16 body).setWidth 8
  let high : Byte := (crc16 body >>> 8).setWidth 8
  have hbody : body.length = 4 + payload.length := by
    rw [List.length_append]
    rfl
  have hframe : framePacket unit code trn payload = 0xA5 :: ((body ++ [low]) ++ [high]) := by
    rw [List.append_assoc]
    rfl
  have hfirst : (byteAt ([] ++ (body ++ [low])) 0).toNat = payload.length :=
    u8_toNat (n := payload.length) (by omega)
  have hcount : (body ++ [low]).length = 5 + payload.length := by
    rw [List.length_append, hbody, List.length_singleton]
    omega
  have hsync : s.receive 0xA5 = s.assembling payload.length [] := by
    rw [receive_of_early (.inl hs), State.takeByte_of_sync (s := s.seeHigh) hs]
    rfl
  rw [hframe, State.receiveAll_cons hopen, hsync, receiveAll_append,
    State.receiveAll_assembling hopen hlen _ [] hfirst (by rw [List.nil_append]; omega),
    List.nil_append, State.receiveAll_cons (s := s.assembling _ _) hopen,
    receive_of_early (.inr (Nat.lt_add_of_pos_right (by decide)))]
  have hlength : (s.assembling payload.length (body ++ [low])).seeHigh.rx.length = payload.length :=
    hfirst
  have htake : (body ++ [low]).take (4 + payload.length) = body := List.take_left' hbody
  have hlow : byteAt (body ++ [low]) (4 + payload.length) = low := by
    rw [← hbody]
    exact byteAt_append_length body [low] 0
  have hgood : (s.assembling payload.length (body ++ [low])).seeHigh.rx.computedCrc =
      high ++ byteAt (body ++ [low]) (4 + payload.length) := by
    rw [Receiver.computedCrc, hlength, hlow]
    exact (congrArg crc16 htake).trans (half_of_bytes _).symm
  have hpacket : (s.assembling payload.length (body ++ [low])).seeHigh.rx.packet =
      ⟨unit, code, trn, payload⟩ := by
    rw [Receiver.packet_eq, hlength]
    show Packet.mk (((body ++ [low]).take _).getD 1 0) (((body ++ [low]).take _).getD 2 0)
      (((body ++ [low]).take _).getD 3 0) (((body ++ [low]).take _).drop 4) = _
    rw [htake]
    rfl
  have hcheck : (s.assembling payload.length (body ++ [low])).seeHigh.rx.state = .check :=
    rxStateAt_of_check (n := (body ++ [low]).length) (by omega)
  rw [State.takeByte_of_second_check hcheck
    (by rw [hlength]; exact hcount), State.checkPacket_of_good (by rw [hlength]; exact hgood), hpacket]
  rfl

/-! ### BREAK (R171) -/

/-- A BREAK empties every slot but a HELD one. -/
theorem Slot.afterBreak_eq (x : Slot) : x.afterBreak = match x with
    | .held trn unit => .held trn unit
    | _ => .free := by
  cases x <;> rfl

/-- Settles O39: the effects of a BREAK, and what a low line keeps from happening. -/
theorem breakClearsUnsent : Obligations.BreakClearsUnsent := by
  intro s hp
  have hclosed (hb : s.breakLow = true) : s.linkReceives = false := by
    simp [State.linkReceives, hb]
  refine ⟨fun hb ht => ⟨_, congrArg Host.Outcome.next (if_pos ?_), rfl, rfl, fun k => ?_, ?_⟩,
    fun h => ?_, fun hb => ⟨fun b => ?_, ?_, ?_⟩, fun hb => ?_⟩
  · rw [Bool.and_eq_true]
    exact ⟨s.linkReceives_iff.2 ⟨hp, hb⟩, decide_eq_true ht⟩
  · show (s.slots.map Slot.afterBreak)[k] = _
    rw [Fin.getElem_fin, Vector.getElem_map]
    exact Slot.afterBreak_eq _
  · have htx : s.tx.cut = match s.tx with
        | .idle => .idle
        | .sending _ p => .cutOff p
        | .cutOff p => .cutOff p := by
      cases s.tx <;> rfl
    simp only [htx]
    rfl
  · refine congrArg Host.Outcome.next (if_neg ?_)
    rw [Bool.and_eq_true, State.linkReceives_iff]
    rintro ⟨⟨_, hb⟩, hlow⟩
    have hle : s.rxHighAt + 1000 ≤ s.usBase := of_decide_eq_true hlow
    rcases h with h | h
    · omega
    · cases h.symm.trans hb
  · exact congrArg Host.Outcome.next (if_neg (by rw [hclosed hb]; decide))
  · exact congrArg Host.Outcome.next (State.transmit_of_busy (by rw [hclosed hb, Bool.and_false]))
  · exact congrArg Host.Outcome.next (if_pos hb)
  · exact congrArg Host.Outcome.next (if_neg (by rw [hb]; decide))

/-! ### The transmitter (R169) -/

theorem State.sendReply_of_queued {s : State} {k : Fin 16} {r : Reply} (h : s.slots[k] = .queued r)
    (ks : List (Fin 16)) (run : Nat) : s.sendReply k ks run =
      { s with
        slots := s.slots.set k (.sending r), replyQueue := ks, runCount := run
        tx := .sending (some k) (framePacket r.unit r.status.code r.trn r.payload) } := by
  simp only [sendReply, h]
  rfl

/-- Settles O40: the table's rows, the ends of a transmission, and the notices' fields. -/
theorem transmitterFollowsTable : Obligations.TransmitterFollowsTable := by
  intro s
  refine ⟨fun hp hb hidle => ?_, fun k p hk => ?_, fun p hk => ?_, fun lost m w ch n c => ?_,
    fun lost f => ?_⟩
  · have hfree : (s.tx.idles && s.linkReceives) = true := by
      rw [Bool.and_eq_true, State.linkReceives_iff]
      refine ⟨?_, hp, hb⟩
      rcases hidle with h | ⟨p, h⟩
      · rw [h]
        rfl
      · rw [h]
        rfl
    refine ⟨fun k ks r hq hk hrun => congrArg Host.Outcome.next ?_,
      fun n ns hn hrun => congrArg Host.Outcome.next ?_,
      fun hq hn => congrArg Host.Outcome.next (State.transmit_of_none hfree hq hn)⟩
    · cases hn : s.notices with
      | nil =>
        rw [State.transmit_of_reply hfree hq hn, State.sendReply_of_queued hk, if_pos rfl]
        exact hn ▸ rfl
      | cons n ns =>
        have hlt : s.runCount < 4 := hrun.resolve_left (by rw [hn]; nofun)
        rw [State.transmit_of_both hfree hq hn, if_pos hlt, State.sendReply_of_queued hk,
          if_neg (by nofun)]
        exact hn ▸ rfl
    · cases hq : s.replyQueue with
      | nil =>
        rw [State.transmit_of_notice hfree hq hn]
        exact hq ▸ rfl
      | cons k ks =>
        have hge : 4 ≤ s.runCount := hrun.resolve_left (by rw [hq]; nofun)
        rw [State.transmit_of_both hfree hq hn, if_neg (by omega)]
        exact hq ▸ rfl
  · show Host.Outcome.next (match s.tx with
      | .idle => s
      | .cutOff _ => { s with tx := .idle }
      | .sending none _ => { s with tx := .idle }
      | .sending (some k) _ => { s.setSlot k .free with tx := .idle }) = _
    rw [hk]
    rfl
  · show Host.Outcome.next (match s.tx with
      | .idle => s
      | .cutOff _ => { s with tx := .idle }
      | .sending none _ => { s with tx := .idle }
      | .sending (some k) _ => { s.setSlot k .free with tx := .idle }) = _
    rcases hk with h | h
    · rw [h]
    · rw [h]
  · refine ⟨_, rfl, rfl, rfl, rfl, rfl, rfl, half_of_bytes _, ?_, rfl, half_of_bytes _,
      word_of_bytes _, word_of_bytes _⟩
    show edgeCode c.direction = _
    cases c.direction <;> rfl
  · obtain ⟨h0, h1, h2⟩ := flagBits_three f.info.window.isSome f.info.addr.isSome f.info.hostTag.isSome
    refine ⟨_, rfl, rfl, rfl, rfl, rfl, h0, h1, h2, ?_, word_of_bytes _, ?_, rfl, word_of_bytes _⟩
    · show u8 ((f.info.window.map Fin.val).getD 0) = _
      cases f.info.window <;> rfl
    · show u8 ((f.info.hostTag.map Fin.val).getD 0) = _
      cases f.info.hostTag <;> rfl

end Sys2Proof.Machine

/-! PROOFS. The dispatcher (section 10.5): its refusals, the link command rows as their packets, and
GET_STATUS. -/

namespace Sys2Proof.Machine

/-! ### What is handed to the dispatcher (R161 to R163) -/

namespace State
variable {s : State} {unit trn : Byte} {take : Ctx → State → State} {k : Fin 16}

theorem command_of_receives (h : s.linkReceives = true) :
    s.command unit trn take = s.dispatch unit trn take :=
  if_pos h

theorem dispatch_of_badTrn (h : trn = 0 ∨ trn = 255) : s.dispatch unit trn take =
    { s.seeHigh with counters := { s.counters with badTrn := satInc 65535 s.counters.badTrn } } :=
  if_pos (by simpa using h)

section
variable (h0 : trn ≠ 0) (h255 : trn ≠ 255)
include h0 h255

theorem dispatch_of_full (hk : s.freeSlot = none) : s.dispatch unit trn take =
    { s.seeHigh with counters := { s.counters with overrun := satInc 65535 s.counters.overrun } } := by
  unfold dispatch
  simp only [hk]
  exact if_neg (by simpa using And.intro h0 h255)

theorem dispatch_of_slot (hk : s.freeSlot = some k) : s.dispatch unit trn take =
    if s.trnPending trn then replied s k unit trn .duplicate []
    else take ⟨unit, trn, k⟩ (s.seeHigh.setSlot k (.held trn unit)) := by
  unfold dispatch
  simp only [hk]
  refine (if_neg (by simpa using And.intro h0 h255)).trans ?_
  rw [refuse_of_held]

end

theorem freeSlot_eq_none (h : ∀ k : Fin 16, s.slots[k] ≠ .free) : s.freeSlot = none := by
  rw [freeSlot, List.find?_eq_none]
  intro k _
  simpa using h k

theorem trnPending_iff : s.trnPending trn = true ↔ ∃ d ∈ s.deferred, d.trn = trn := by
  simp [trnPending]

end State

/-- The unit codes that address a unit (section 10.2). -/
theorem unitOf_eq_none {b : Byte} (h : ¬(b = 0x00 ∨ (0x10 ≤ b.toNat ∧ b.toNat ≤ 0x1F) ∨ b = 0x20
    ∨ b = 0x30 ∨ b = 0x40)) : unitOf b = none := by
  simp only [not_or] at h
  obtain ⟨h0, h1, h2, h3, h4⟩ := h
  rw [unitOf, if_neg h0, dif_neg (by omega), if_neg h2, if_neg h3, if_neg h4]

section
variable {p : Packet}

theorem takePacket_of_noUnit (hu : unitOf p.unit = none) (c : Ctx) (s : State) :
    takePacket p c s = s.refuse c .noUnit := by
  simp only [takePacket, undefinedStatus, hu]

variable {u : UnitId} (hu : unitOf p.unit = some u)
include hu

theorem takePacket_of_noCommand (hl : commandLength u p.code = none) (c : Ctx) (s : State) :
    takePacket p c s = s.refuse c .noCommand := by
  simp only [takePacket, undefinedStatus, hu, hl]

theorem takePacket_of_badLength {n : Nat} (hl : commandLength u p.code = some n)
    (hp : p.payload.length ≠ n) (c : Ctx) (s : State) :
    takePacket p c s = s.refuse c .badLength := by
  simp only [takePacket, undefinedStatus, hu, hl, hp, if_false]

end

/-- Settles O41: the dispatcher's checks, and the three of the packet. -/
theorem dispatcherRefusals : Obligations.DispatcherRefusals := by
  intro s unit code trn payload hp hb run c
  have hrun : run = .next (s.dispatch unit trn (takePacket ⟨unit, code, trn, payload⟩)) :=
    congrArg Host.Outcome.next (State.command_of_receives (s.linkReceives_iff.2 ⟨hp, hb⟩))
  refine ⟨fun h => ?_, fun h0 h255 hfull => ?_, ?_⟩
  · rw [hrun, State.dispatch_of_badTrn h]
    rfl
  · rw [hrun, State.dispatch_of_full h0 h255 (State.freeSlot_eq_none hfull)]
    rfl
  · intro k h0 h255 hf hlow refused known
    have hslot := State.dispatch_of_slot (unit := unit)
      (take := takePacket ⟨unit, code, trn, payload⟩) h0 h255 (State.freeSlot_eq_some.2 ⟨hf, hlow⟩)
    refine ⟨fun hd => ?_, fun hd => ?_⟩
    · show run = _
      rw [hrun, hslot, if_pos (State.trnPending_iff.2 hd)]
    · have htake : run = .next (takePacket ⟨unit, code, trn, payload⟩ ⟨unit, trn, k⟩
          (s.seeHigh.setSlot k (.held trn unit))) := by
        have hno : ¬ s.trnPending trn = true := by
          rw [State.trnPending_iff]
          rintro ⟨d, hm, he⟩
          exact hd d hm he
        rw [hrun, hslot, if_neg hno]
      refine ⟨fun hu => ?_, fun u hu => ⟨fun hl => ?_, fun n hl hlen => ?_⟩⟩
      · exact htake.trans (by rw [takePacket_of_noUnit (unitOf_eq_none hu), State.refuse_of_held])
      · exact htake.trans (by rw [takePacket_of_noCommand hu hl, State.refuse_of_held])
      · exact htake.trans (by rw [takePacket_of_badLength hu hl hlen, State.refuse_of_held])

/-! ### The rows and their packets (R192, R193) -/

/-- A command row has the effect of a packet that is handed to the same unit. -/
theorem exec_eq_handPacket {i : Instr} {p : Packet} {s : State} {take : Ctx → State → State}
    (hexec : exec i s = .next (s.command p.unit p.trn take)) (htake : takePacket p = take) :
    exec i s = .next (if s.phase = .serving ∧ s.breakLow = false then s.handPacket p else s) := by
  rw [hexec, ← htake]
  exact congrArg Host.Outcome.next (if_congr s.linkReceives_iff rfl rfl)

/-- A packet that R192 defines is handed to its unit with its payload's fields. -/
theorem takePacket_eq {p : Packet} {u : UnitId} {n : Nat} {take : Ctx → State → State}
    (hu : unitOf p.unit = some u) (hl : commandLength u p.code = some n) (hp : p.payload.length = n)
    (htake : takeDefined u p = take) : takePacket p = take := by
  funext c s
  rw [takePacket_of_defined hu hl hp, htake]

section
variable (w : Fin 16) (trn : Byte)

theorem takePacket_setLimits (limit : Half) :
    takePacket ⟨coreUnit, 0x03, trn, le16 limit⟩ = takeSetLimits limit :=
  takePacket_eq rfl rfl rfl (congrArg takeSetLimits (half_of_bytes limit))

theorem takePacket_define (base : Word) (pages : Half) (mode format count flags : Byte)
    (shadow : Word) :
    takePacket ⟨windowUnit w, 0x01, trn,
      le32 base ++ le16 pages ++ [mode, format, count, flags] ++ le32 shadow⟩ =
      takeDefine w base pages mode format count flags shadow := by
  refine takePacket_eq (unitOf_windowUnit w) rfl rfl ?_
  exact congr (congr (congr (congr (congr (congr (congrArg (takeDefine w) (word_of_bytes base))
    (half_of_bytes pages)) rfl) rfl) rfl) rfl) (word_of_bytes shadow)

theorem takePacket_setChannel (channel : Byte) (gain offset low high : Half) :
    takePacket ⟨windowUnit w, 0x02, trn,
      [channel] ++ le16 gain ++ le16 offset ++ le16 low ++ le16 high⟩ =
      takeSetChannel w channel ⟨gain, offset, low, high⟩ := by
  refine takePacket_eq (unitOf_windowUnit w) rfl rfl ?_
  exact congrArg (takeSetChannel w channel) (congr (congr (congr (congrArg ChanRec.mk
    (half_of_bytes gain)) (half_of_bytes offset)) (half_of_bytes low)) (half_of_bytes high))

theorem takePacket_sweep (start count : Half) :
    takePacket ⟨windowUnit w, 0x06, trn, le16 start ++ le16 count⟩ = takeSweep w start count :=
  takePacket_eq (unitOf_windowUnit w) rfl rfl
    (congr (congrArg (takeSweep w) (half_of_bytes start)) (half_of_bytes count))

theorem takePacket_zeroCapture (channel n : Byte) (limit : Half) :
    takePacket ⟨windowUnit w, 0x07, trn, [channel, n] ++ le16 limit⟩ =
      takeZeroCapture w channel n limit :=
  takePacket_eq (unitOf_windowUnit w) rfl rfl
    (congrArg (takeZeroCapture w channel n) (half_of_bytes limit))

theorem takePacket_monSet (monitor window channel : Byte) (level hysteresis : Half)
    (direction mode : Byte) :
    takePacket ⟨monitorUnit, 0x01, trn,
      [monitor, window, channel] ++ le16 level ++ le16 hysteresis ++ [direction, mode]⟩ =
      takeMonSet monitor window channel level hysteresis direction mode := by
  refine takePacket_eq rfl rfl rfl ?_
  exact congr (congr (congr (congrArg (takeMonSet monitor window channel) (half_of_bytes level))
    (half_of_bytes hysteresis)) rfl) rfl

theorem takePacket_tbSet (source edge : Byte) (preset : Word) :
    takePacket ⟨timeUnit, 0x01, trn, [source, edge] ++ le32 preset⟩ = takeTbSet source edge preset :=
  takePacket_eq rfl rfl rfl (congrArg (takeTbSet source edge) (word_of_bytes preset))

end

/-- Settles O51: each row's packet is defined, and its payload's fields are the row's operands. -/
theorem commandRowsAreTheirPackets : Obligations.CommandRowsAreTheirPackets := by
  intro i p s hp
  cases i with
  | hardwareReset | resetEnd | load | opening | acceptance | responseTaken | hostTurn | sweepReadTurn
  | sweepWriteTurn | subRequestIssue | memoryResponse | expiry | captureDeadline | strobeEdge
  | timebaseIncrement | linkByteReceived | interByteGap | linkBreak | breakEnd | transmitterChoice
  | transmissionEnd | commitEnd => cases hp
  | undefinedCommand unit code trn payload =>
    cases hp
    exact exec_eq_handPacket rfl rfl
  | getIdentity | getStatus | getLinkCounters | monArm | monRelease | monQuery | tbRead | faultPeek
  | faultPop | faultClear | bootCommit | bootQuery =>
    cases hp
    exact exec_eq_handPacket rfl (takePacket_eq rfl rfl rfl rfl)
  | enable w | disable w | query w | abort w | readStats w =>
    cases hp
    exact exec_eq_handPacket rfl (takePacket_eq (unitOf_windowUnit w) rfl rfl rfl)
  | setLimits =>
    cases hp
    exact exec_eq_handPacket rfl (takePacket_setLimits ..)
  | define =>
    cases hp
    exact exec_eq_handPacket rfl (takePacket_define ..)
  | setChannel =>
    cases hp
    exact exec_eq_handPacket rfl (takePacket_setChannel ..)
  | sweep =>
    cases hp
    exact exec_eq_handPacket rfl (takePacket_sweep ..)
  | zeroCapture =>
    cases hp
    exact exec_eq_handPacket rfl (takePacket_zeroCapture ..)
  | monSet =>
    cases hp
    exact exec_eq_handPacket rfl (takePacket_monSet ..)
  | tbSet =>
    cases hp
    exact exec_eq_handPacket rfl (takePacket_tbSet ..)
  | bootReload trn lostA lostB =>
    obtain ⟨hlost, hp⟩ := Option.ite_none_left_eq_some.1 hp
    obtain ⟨rfl, rfl⟩ : lostA = false ∧ lostB = false := by simpa using hlost
    cases hp
    exact exec_eq_handPacket rfl (takePacket_eq rfl rfl rfl rfl)

/-! ### GET_STATUS (R175) -/

/-- A slot reserved is one more that is not FREE. -/
theorem countP_slots_set {v : Vector Slot 16} {k : Fin 16} {x : Slot} (h : v[k] = .free)
    (hx : x ≠ .free) :
    (v.set k x).toList.countP (· ≠ .free) = v.toList.countP (· ≠ .free) + 1 := by
  have hlt : k.val < v.toList.length := by simp
  have hget : v.toList[k.val] = .free := by simpa using h
  rw [Vector.toList_set, List.countP_set hlt, hget]
  simp [hx]

theorem sweepingWindow_eq {s : State} {w : Option (Fin 16)}
    (h : ∀ v : Fin 16, w = some v ↔ s.windows[v].activity = .sweeping) : s.sweepingWindow = w := by
  cases hf : s.sweepingWindow with
  | none =>
    rw [State.sweepingWindow, List.find?_eq_none] at hf
    cases w with
    | none => rfl
    | some v => exact absurd ((h v).1 rfl) (by simpa using hf v (List.mem_finRange v))
  | some v =>
    have hv := List.find?_some hf
    exact ((h v).2 (of_decide_eq_true hv)).symm

theorem flagBits_pair (a b : Bool) :
    flagBits [a, b] = (if a then 1 else 0) + (if b then 2 else 0) := by
  revert a b
  decide

/-- Settles O43: the counts, with the slot just reserved among those not FREE. -/
theorem getStatusReports : Obligations.GetStatusReports := by
  intro s trn k w hl hw
  have hrun := next_command_of_takes hl (s.takeGetStatus_of_held k 0x00 trn)
  obtain ⟨_, _, _, _, hfree, _⟩ := id hl
  have hslots := countP_slots_set (x := .held trn 0x00) hfree nofun
  have hsweep : (s.seeHigh.setSlot k (.held trn 0x00)).sweepingWindow = w := sweepingWindow_eq hw
  refine hrun.trans (congrArg (fun p => Host.Outcome.next (replied s k 0x00 trn .ok p)) ?_)
  rw [statusPayload, hsweep, flagBits_pair]
  have hcount : (s.seeHigh.setSlot k (.held trn 0x00)).slots.toList.countP (· ≠ .free) =
      s.slots.toList.countP (· ≠ .free) + 1 := hslots
  rw [hcount]
  cases w <;> rfl

end Sys2Proof.Machine

/-! PROOFS. A conditioned write lane by lane, and its samples (sections 2.1, 2.2, 2.8). -/

namespace Sys2Proof.Machine

/-! ### Lanes (R22, R23) -/

/-- A lane of a word: 0, the lower half, or 1, the upper one. -/
abbrev laneBits (v : Word) (lane : Nat) : Half := v.extractLsb' (16 * lane) 16

/-- Both enables of a lane. -/
abbrev LaneEnabled (e : BitVec 4) (lane : Nat) : Prop :=
  e.getLsbD (2 * lane) = true ∧ e.getLsbD (2 * lane + 1) = true

theorem lane0_eq (v : Word) : lane0 v = laneBits v 0 := by
  apply BitVec.eq_of_toNat_eq
  simp [lane0]

theorem lane1_eq (v : Word) : lane1 v = laneBits v 1 := by
  apply BitVec.eq_of_toNat_eq
  simp [lane1]

theorem laneBits_ofLanes (l0 l1 : Half) :
    laneBits (ofLanes l0 l1) 0 = l0 ∧ laneBits (ofLanes l0 l1) 1 = l1 := by
  have h0 := l0.isLt
  have h1 := l1.isLt
  have hword : (ofLanes l0 l1).toNat = l1.toNat * 2 ^ 16 + l0.toNat := toNat_append_eq l1 l0
  constructor
  · apply BitVec.eq_of_toNat_eq
    rw [← lane0_eq, lane0, BitVec.toNat_setWidth, hword]
    omega
  · apply BitVec.eq_of_toNat_eq
    rw [← lane1_eq, lane1, BitVec.toNat_setWidth, BitVec.toNat_ushiftRight, hword,
      Nat.shiftRight_eq_div_pow]
    omega

theorem complete_iff (e : BitVec 4) :
    (complete (laneEnables e).1 = true ↔ LaneEnabled e 0)
      ∧ (complete (laneEnables e).2 = true ↔ LaneEnabled e 1) := by
  revert e
  decide

section
variable (d : WindowDef) (chans : List ChanRec) (addr : Nat)

/-! ### The conditioned word (R33) -/

theorem conditionedLane_of_complete {e : BitVec 2} (h : complete e = true) (r : Half) :
    conditionedLane d chans addr e r = encodeLane (conditionLane d chans addr r).y :=
  if_pos h

theorem conditionedLane_of_incomplete {e : BitVec 2} (h : ¬ complete e = true) (r : Half) :
    conditionedLane d chans addr e r = r :=
  if_neg h

/-- A complete lane of a conditioned word is conditioned, an empty one kept. -/
theorem laneBits_conditionWord (x : WriteWord) (lane : Fin 2) :
    (LaneEnabled x.enables lane → laneBits (conditionWord d chans addr x).data lane =
      encodeLane (conditionLane d chans (addr + 2 * lane.val) (laneBits x.data lane)).y)
    ∧ (¬ LaneEnabled x.enables lane →
      laneBits (conditionWord d chans addr x).data lane = laneBits x.data lane) := by
  obtain ⟨h0, h1⟩ := complete_iff x.enables
  match lane with
  | 0 =>
    have hword : laneBits (conditionWord d chans addr x).data 0 =
        conditionedLane d chans addr (laneEnables x.enables).1 (lane0 x.data) :=
      (laneBits_ofLanes _ _).1
    exact ⟨fun he => hword.trans (by
        rw [conditionedLane_of_complete d chans addr (h0.2 he), lane0_eq]; rfl),
      fun he => hword.trans (by
        rw [conditionedLane_of_incomplete d chans addr (mt h0.1 he), lane0_eq]; rfl)⟩
  | 1 =>
    have hword : laneBits (conditionWord d chans addr x).data 1 =
        conditionedLane d chans (addr + 2) (laneEnables x.enables).2 (lane1 x.data) :=
      (laneBits_ofLanes _ _).2
    exact ⟨fun he => hword.trans (by
        rw [conditionedLane_of_complete d chans (addr + 2) (h1.2 he), lane1_eq]; rfl),
      fun he => hword.trans (by
        rw [conditionedLane_of_incomplete d chans (addr + 2) (mt h1.1 he), lane1_eq]; rfl)⟩

/-! ### The samples (R24, R34, R77) -/

/-- The sample of a burst's lane i, counted in address order, if the lane is complete. -/
def sampleAt (ws : List WriteWord) (i : Nat) : Option Sample :=
  if LaneEnabled (ws.getD (i / 2) ⟨0, 0⟩).enables (i % 2) then
    some ⟨channelOf d (addr + 2 * i), BitVec.ofNat 32 (addr + 2 * i),
      conditionLane d chans (addr + 2 * i) (laneBits (ws.getD (i / 2) ⟨0, 0⟩).data (i % 2))⟩
  else none

theorem sampleAt_cons_zero (w : WriteWord) (ws : List WriteWord) :
    (sampleAt d chans addr (w :: ws) 0).toList =
      laneSample d chans addr (laneEnables w.enables).1 (lane0 w.data) := by
  obtain ⟨h0, _⟩ := complete_iff w.enables
  have hs : sampleAt d chans addr (w :: ws) 0 = if LaneEnabled w.enables 0 then
      some ⟨channelOf d addr, BitVec.ofNat 32 addr, conditionLane d chans addr (laneBits w.data 0)⟩
      else none := rfl
  rw [hs, laneSample, lane0_eq]
  by_cases h : LaneEnabled w.enables 0
  · rw [if_pos h, if_pos (h0.2 h), Option.toList_some]
  · rw [if_neg h, if_neg (mt h0.1 h), Option.toList_none]

theorem sampleAt_cons_one (w : WriteWord) (ws : List WriteWord) :
    (sampleAt d chans addr (w :: ws) 1).toList =
      laneSample d chans (addr + 2) (laneEnables w.enables).2 (lane1 w.data) := by
  obtain ⟨_, h1⟩ := complete_iff w.enables
  have hs : sampleAt d chans addr (w :: ws) 1 = if LaneEnabled w.enables 1 then
      some ⟨channelOf d (addr + 2), BitVec.ofNat 32 (addr + 2),
        conditionLane d chans (addr + 2) (laneBits w.data 1)⟩
      else none := rfl
  rw [hs, laneSample, lane1_eq]
  by_cases h : LaneEnabled w.enables 1
  · rw [if_pos h, if_pos (h1.2 h), Option.toList_some]
  · rw [if_neg h, if_neg (mt h1.1 h), Option.toList_none]

/-- Behind the two lanes of the first word stand those of the rest. -/
theorem sampleAt_cons_add_two (w : WriteWord) (ws : List WriteWord) (i : Nat) :
    sampleAt d chans addr (w :: ws) (2 + i) = sampleAt d chans (addr + 4) ws i := by
  have hdiv : (2 + i) / 2 = i / 2 + 1 := by omega
  have hmod : (2 + i) % 2 = i % 2 := by omega
  have haddr : addr + 2 * (2 + i) = addr + 4 + 2 * i := by omega
  unfold sampleAt
  rw [hdiv, hmod, haddr, List.getD_cons_succ]

end

theorem burstSamples_eq (d : WindowDef) (chans : List ChanRec) (ws : List WriteWord) :
    ∀ addr, burstSamples d chans addr ws =
      (List.range (2 * ws.length)).filterMap (sampleAt d chans addr ws) := by
  induction ws with
  | nil =>
    intro addr
    rfl
  | cons w ws ih =>
    intro addr
    have hpair : (List.range 2).filterMap (sampleAt d chans addr (w :: ws)) =
        (sampleAt d chans addr (w :: ws) 0).toList ++ (sampleAt d chans addr (w :: ws) 1).toList := by
      rw [List.filterMap_eq_flatMap_toList]
      exact congrArg (_ ++ ·) (List.append_nil _)
    have hrest : ((List.range (2 * ws.length)).map (2 + ·)).filterMap
        (sampleAt d chans addr (w :: ws)) = burstSamples d chans (addr + 4) ws := by
      rw [ih, List.filterMap_map]
      exact List.filterMap_congr fun i _ => sampleAt_cons_add_two d chans addr w ws i
    rw [List.length_cons, Nat.mul_succ, Nat.add_comm, List.range_add, List.filterMap_append, hpair,
      hrest, sampleAt_cons_zero, sampleAt_cons_one]
    rfl

/-- Settles O50: each word lane by lane, and the samples by their lanes. -/
theorem conditionedBurstKeepsShape : Obligations.ConditionedBurstKeepsShape := by
  intro d chans addr ws channel record bits
  refine ⟨conditionBurst_length d chans ws addr, fun j x hx => ?_, burstSamples_eq d chans ws addr⟩
  refine ⟨conditionWord d chans (addr + 4 * j) x, ?_, rfl, ?_⟩
  · rw [conditionBurst_getElem?, hx]
    rfl
  · intro lane a e0 e1
    obtain ⟨hfull, hkept⟩ := laneBits_conditionWord d chans (addr + 4 * j) x lane
    exact ⟨fun h0 h1 => hfull ⟨h0, h1⟩, fun h0 _ => hkept fun h => nomatch h0.symm.trans h.1⟩

end Sys2Proof.Machine
